-- ==== Sys2Proof/Word.lean ====
section
/-! DEFINITION. The bit-vector types of the receiver: the widths the spec gives its values (00_scope.md R7, R8, R10). -/

namespace Sys2Proof

/-- `U32` of R10: the width of a frame (`FRAME_BITS` = 32, R7). -/
abbrev Word := BitVec 32

/-- The temperature field of a frame, 14 bits of two's complement (`TEMP_BITS`, R7). -/
abbrev Field := BitVec 14

/-- The bits 17:3 of a frame, which the receiver ignores (30_encoding.md R71, R74). -/
abbrev Ignored := BitVec 15

/-- The bottom three bits of a frame (30_encoding.md R71, R72). -/
abbrev FaultBits := BitVec 3

/-- `W` of R8: the width of `temp_q` (decision D12). -/
abbrev tempWidth : Nat := 16

/-- `I_W` of R10 at the width the spec decides: a signed count of quarter degrees Celsius. -/
abbrev Quarters := BitVec tempWidth

/-- The frame bit position counter, 5 bits (`BITIDX_BITS`, R8; 10_state.md R22). -/
abbrev BitIdx := BitVec 5

end Sys2Proof
end

