-- ==== Sys2Proof/Config.lean ====
section
/-! DEFINITION. What one implementation of the receiver fixes (the OPEN parameters of 00_scope.md R8), and the free values (93_implementation_defined.md, treatment `any value`). -/

namespace Sys2Proof

/-- The parameters of R8 that the spec leaves open. They are the same for the whole life of a machine: State carries
them as plain data so that a statement about every state holds for every choice of them, and no operation writes them. -/
structure Config where
  /-- `PIN_SEL`, `PIN_CLK`, `PIN_DIN`: the three pin identifiers given at construction (10_state.md R27). -/
  pinSel : Nat
  pinClk : Nat
  pinDin : Nat
  /-- `SCK_RESET_LEVEL`: the level INIT drives on the clock line (10_state.md R25). -/
  sckResetLevel : Bool
  /-- `NAN_PATTERN`: the bits of the fault sentinel on `result_f32` (42_decoder.md R127). -/
  nanPattern : Word
  /-- `T_CLK` in picoseconds. -/
  tClkPs : Nat
  /-- `N_SETTLE`, `N_LOW`, `N_HIGH`: ticks of the three waits (70_reset_and_hazards.md R180). -/
  nSettle : Nat
  nLow : Nat
  nHigh : Nat
  deriving DecidableEq, Repr

/-- A binary32 pattern is a NaN when bits 30:23 are all 1 and bits 22:0 are not all 0 (42_decoder.md R127). -/
def isNaN32 (w : Word) : Bool :=
  w.extractLsb' 23 8 == 0xFF#8 && w.extractLsb' 0 23 != 0#23

/-- The three pin identifiers are pairwise distinct, as the construction contract requires (10_state.md R27). -/
def Config.pinsDistinct (c : Config) : Bool :=
  c.pinSel != c.pinClk && c.pinSel != c.pinDin && c.pinClk != c.pinDin

/-- The bounds of 70_reset_and_hazards.md R180: at least 1 µs for LOW and HIGH, at least the device's 100 ns for SETTLE. -/
def Config.waitsLongEnough (c : Config) : Bool :=
  1000000 ≤ c.nLow * c.tClkPs && 1000000 ≤ c.nHigh * c.tClkPs && 100000 ≤ c.nSettle * c.tClkPs

/-- The parameters the reset state of this package carries: the spec's defaults for `SCK_RESET_LEVEL` and `NAN_PATTERN`
(R8), and for the parameters without a default the values of assumption 6 (DESIGN CHOICE). -/
def Config.default : Config where
  pinSel := 0
  pinClk := 1
  pinDin := 2
  sckResetLevel := false
  nanPattern := 0x7FC00000#32
  tClkPs := 1000000
  nSettle := 1
  nLow := 1
  nHigh := 1

/-- FREE VALUE (U9, 20_memory.md R56): the bit the environment presents on `so` where the input script presents none. -/
opaque Config.freeSo : Nat → Bool

/-- FREE VALUE (U3, U11): what the hardware drives on port `temp_q` while the register holds no value. -/
opaque Config.freeTempQ : Nat → Quarters

/-- FREE VALUE (U11): what the hardware drives on port `fault` while the register holds no value. -/
opaque Config.freeFault : Nat → Bool

end Sys2Proof
end

