-- ==== Sys2Proof/Syntax.lean ====
section
/-! DEFINITION. The operations of the receiver: one constructor for each row of spec/opcode_table.json (30_encoding.md R83). -/

namespace Sys2Proof

/-- The fifteen rows of the opcode table: three host commands, eight sequencer micro-operations, four frame classes.
No operation takes an operand from its encoding but for the bits of the pattern itself (30_encoding.md R70). -/
inductive Instr where
  /-- CMD `1x`: construction; `start` is the don't-care bit of the pattern (40_commands.md R90). -/
  | init (start : Bool)
  /-- CMD `01` (40_commands.md R91). -/
  | read
  /-- CMD `00` (40_commands.md R92). -/
  | nop
  /-- SEQ `000` (41_sequencer.md R101). -/
  | idle
  /-- SEQ `001` (41_sequencer.md R102). -/
  | clkidle
  /-- SEQ `010` (41_sequencer.md R103). -/
  | selassert
  /-- SEQ `011` (41_sequencer.md R104). -/
  | bitlow
  /-- SEQ `100` (41_sequencer.md R105). -/
  | bitsample
  /-- SEQ `101` (41_sequencer.md R106). -/
  | bithigh
  /-- SEQ `110` (41_sequencer.md R107). -/
  | seldeassert
  /-- SEQ `111` (42_decoder.md R120). -/
  | decode
  /-- FRAME with `FAULTBITS` = `000` (42_decoder.md R126). -/
  | frameTemp (temp : Field) (ign : Ignored)
  /-- FRAME with `FAULTBITS` = `ff1` (42_decoder.md R125). -/
  | frameFaultXx1 (temp : Field) (ign : Ignored) (faultBits : FaultBits)
  /-- FRAME with `FAULTBITS` = `f10` (42_decoder.md R125). -/
  | frameFaultX10 (temp : Field) (ign : Ignored) (faultBits : FaultBits)
  /-- FRAME with `FAULTBITS` = `100` (42_decoder.md R125). -/
  | frameFault100 (temp : Field) (ign : Ignored)
  deriving DecidableEq, Repr

/-- The three kinds of bit pattern the block decodes (30_encoding.md R70). -/
inductive Format where
  | cmd
  | seq
  | frame
  deriving DecidableEq, Repr

/-- A bit pattern in its format, at the format's width: 2, 3 or 32 bits (30_encoding.md R70, R80). -/
inductive Pattern where
  /-- `{rst, start}`: `rst` is bit 1, `start` bit 0 (30_encoding.md R77). -/
  | cmd (p : BitVec 2)
  /-- The value of the `phase` register (30_encoding.md R78). -/
  | seq (p : BitVec 3)
  /-- A frame (30_encoding.md R71). -/
  | frame (f : Word)
  deriving DecidableEq, Repr

/-- The opcode table's name of an instruction. -/
def Instr.mnemonic : Instr → String
  | .init _ => "INIT"
  | .read => "READ"
  | .nop => "NOP"
  | .idle => "IDLE"
  | .clkidle => "CLKIDLE"
  | .selassert => "SELASSERT"
  | .bitlow => "BITLOW"
  | .bitsample => "BITSAMPLE"
  | .bithigh => "BITHIGH"
  | .seldeassert => "SELDEASSERT"
  | .decode => "DECODE"
  | .frameTemp _ _ => "FRAME.TEMP"
  | .frameFaultXx1 _ _ _ => "FRAME.FAULT_xx1"
  | .frameFaultX10 _ _ _ => "FRAME.FAULT_x10"
  | .frameFault100 _ _ => "FRAME.FAULT_100"

end Sys2Proof
end

