-- ==== Sys2Proof/WellFormed.lean ====
section
/-! DEFINITION. Which instructions and which parameters are well formed: the fixed bits of a frame class (30_encoding.md R75), the pin identifiers, the NaN pattern and the waits (00_scope.md R8). -/

namespace Sys2Proof

/-- The fault bits an instruction carries are those its row of the opcode table fixes: `xx1` has bit 0 set, `x10` has
bit 0 clear and bit 1 set (30_encoding.md R75). Every other operand is well formed at every value. -/
def Instr.WellFormed : Instr → Bool
  | .init _ => true
  | .read => true
  | .nop => true
  | .idle => true
  | .clkidle => true
  | .selassert => true
  | .bitlow => true
  | .bitsample => true
  | .bithigh => true
  | .seldeassert => true
  | .decode => true
  | .frameTemp _ _ => true
  | .frameFaultXx1 _ _ fb => fb.getLsbD 0
  | .frameFaultX10 _ _ fb => !fb.getLsbD 0 && fb.getLsbD 1
  | .frameFault100 _ _ => true

/-- Parameters that make a machine an implementation of the spec: distinct pins (10_state.md R27), a NaN as the fault
sentinel (42_decoder.md R127), waits of at least the stated minimums (70_reset_and_hazards.md R180). -/
def Config.WellFormed (c : Config) : Bool :=
  c.pinsDistinct && isNaN32 c.nanPattern && c.waitsLongEnough

end Sys2Proof
end

