-- ==== Sys2Proof/Decode.lean ====
section
/-! DEFINITION. The decoder, the encoder and the opcode table (30_encoding.md sections 2 to 5 and 8). -/

namespace Sys2Proof

/-! ### The decoder -/

/-- Format CMD (30_encoding.md R77): `1x` INIT, `01` READ, `00` NOP. -/
def decodeCmd (p : BitVec 2) : Instr :=
  if p.getLsbD 1 then .init (p.getLsbD 0)
  else if p.getLsbD 0 then .read
  else .nop

/-- Format SEQ (30_encoding.md R78): all eight values select a micro-operation. -/
def decodeSeq (p : BitVec 3) : Instr :=
  if p = 0b000#3 then .idle
  else if p = 0b001#3 then .clkidle
  else if p = 0b010#3 then .selassert
  else if p = 0b011#3 then .bitlow
  else if p = 0b100#3 then .bitsample
  else if p = 0b101#3 then .bithigh
  else if p = 0b110#3 then .seldeassert
  else .decode

/-- Field `TEMP`, bits 31:18 (30_encoding.md R71). -/
def frameTempField (f : Word) : Field := f.extractLsb' 18 14

/-- Field `IGN`, bits 17:3 (30_encoding.md R71). -/
def frameIgnField (f : Word) : Ignored := f.extractLsb' 3 15

/-- Field `FAULTBITS`, bits 2:0 (30_encoding.md R71). -/
def frameFaultField (f : Word) : FaultBits := f.extractLsb' 0 3

/-- Format FRAME (30_encoding.md R75): the class of a frame by its mask and match patterns. -/
def decodeFrame (f : Word) : Instr :=
  if f &&& 0x00000001#32 = 0x00000001#32 then
    .frameFaultXx1 (frameTempField f) (frameIgnField f) (frameFaultField f)
  else if f &&& 0x00000003#32 = 0x00000002#32 then
    .frameFaultX10 (frameTempField f) (frameIgnField f) (frameFaultField f)
  else if f &&& 0x00000007#32 = 0x00000004#32 then
    .frameFault100 (frameTempField f) (frameIgnField f)
  else .frameTemp (frameTempField f) (frameIgnField f)

/-- Decoding is total: no format has an illegal or reserved encoding (30_encoding.md R79). -/
def decode : Pattern → Instr
  | .cmd p => decodeCmd p
  | .seq p => decodeSeq p
  | .frame f => decodeFrame f

/-- Why a number is no pattern of a format. -/
inductive DecodeError where
  /-- A bit is set above the format's width (30_encoding.md R80: the widths are always 2, 3 and 32 bits). -/
  | tooWide
  deriving DecidableEq, Repr

/-- The width of a format (30_encoding.md R80). -/
def Format.width : Format → Nat
  | .cmd => 2
  | .seq => 3
  | .frame => 32

/-- The pattern of a format whose bits are the number `w`, bit 0 the least significant. -/
def Format.pattern (fmt : Format) (w : Nat) : Pattern :=
  match fmt with
  | .cmd => .cmd (BitVec.ofNat 2 w)
  | .seq => .seq (BitVec.ofNat 3 w)
  | .frame => .frame (BitVec.ofNat 32 w)

/-- The decoder on any number: a number too wide for the format is rejected by name. -/
def decodeBits (fmt : Format) (w : Nat) : Except DecodeError Instr :=
  if w < 2 ^ fmt.width then .ok (decode (fmt.pattern w)) else .error .tooWide

/-! ### The encoder -/

/-- A frame from its three fields, `TEMP` on top (30_encoding.md R71). -/
def frameOf (temp : Field) (ign : Ignored) (faultBits : FaultBits) : Word :=
  temp ++ ign ++ faultBits

/-- The pattern of an instruction, written from the opcode table's encodings. -/
def encode : Instr → Pattern
  | .init start => .cmd (if start then 0b11#2 else 0b10#2)
  | .read => .cmd 0b01#2
  | .nop => .cmd 0b00#2
  | .idle => .seq 0b000#3
  | .clkidle => .seq 0b001#3
  | .selassert => .seq 0b010#3
  | .bitlow => .seq 0b011#3
  | .bitsample => .seq 0b100#3
  | .bithigh => .seq 0b101#3
  | .seldeassert => .seq 0b110#3
  | .decode => .seq 0b111#3
  | .frameTemp temp ign => .frame (frameOf temp ign 0b000#3)
  | .frameFaultXx1 temp ign fb => .frame (frameOf temp ign fb)
  | .frameFaultX10 temp ign fb => .frame (frameOf temp ign fb)
  | .frameFault100 temp ign => .frame (frameOf temp ign 0b100#3)

/-! ### The opcode table -/

/-- The format a pattern belongs to. -/
def Pattern.format : Pattern → Format
  | .cmd _ => .cmd
  | .seq _ => .seq
  | .frame _ => .frame

/-- A pattern's bits as a number, bit 0 the least significant. -/
def Pattern.bits : Pattern → Nat
  | .cmd p => p.toNat
  | .seq p => p.toNat
  | .frame f => f.toNat

/-- One row of spec/opcode_table.json: its mnemonic, format, mask and match. -/
structure Row where
  mnemonic : String
  format : Format
  mask : Nat
  value : Nat
  deriving DecidableEq, Repr

/-- spec/opcode_table.json, in its order (30_encoding.md R83). -/
def opcodeTable : List Row :=
  [⟨"INIT", .cmd, 0x2, 0x2⟩, ⟨"READ", .cmd, 0x3, 0x1⟩, ⟨"NOP", .cmd, 0x3, 0x0⟩]
  ++ [⟨"IDLE", .seq, 0x7, 0x0⟩, ⟨"CLKIDLE", .seq, 0x7, 0x1⟩, ⟨"SELASSERT", .seq, 0x7, 0x2⟩,
      ⟨"BITLOW", .seq, 0x7, 0x3⟩, ⟨"BITSAMPLE", .seq, 0x7, 0x4⟩, ⟨"BITHIGH", .seq, 0x7, 0x5⟩,
      ⟨"SELDEASSERT", .seq, 0x7, 0x6⟩, ⟨"DECODE", .seq, 0x7, 0x7⟩]
  ++ [⟨"FRAME.TEMP", .frame, 0x7, 0x0⟩, ⟨"FRAME.FAULT_xx1", .frame, 0x1, 0x1⟩,
      ⟨"FRAME.FAULT_x10", .frame, 0x3, 0x2⟩, ⟨"FRAME.FAULT_100", .frame, 0x7, 0x4⟩]

/-- "A pattern matches a value v when v & mask = match" (30_encoding.md R83), within one format. -/
def Row.fits (r : Row) (p : Pattern) : Bool :=
  r.format == p.format && p.bits &&& r.mask == r.value

/-! ### The host's probe -/

/-- The format of a row that the opcode table gives `nbits` bits. CMD and SEQ rows are both shorter than a byte, so in
whole bytes (`nbits` = 8) the two formats cannot be told apart: SEQ is taken then (assumption 9). -/
def tableFormat (nbits : Nat) : Option Format :=
  if nbits = 2 then some .cmd
  else if nbits = 3 ∨ nbits = 8 then some .seq
  else if nbits = 32 then some .frame
  else none

/-- The pattern of a table word, none where the bits do not fit the format. -/
def tablePattern (nbits w : Nat) : Option Pattern :=
  match tableFormat nbits with
  | some fmt => if w < 2 ^ fmt.width then some (fmt.pattern w) else none
  | none => none

/-- The instruction the decoder reads from a word of spec/opcode_table.json. -/
def decodeTableWord (nbits w : Nat) : Option Instr :=
  match tableFormat nbits with
  | some fmt => (decodeBits fmt w).toOption
  | none => none

end Sys2Proof
end

