-- ==== Sys2Proof/Machine/State.lean ====
section
/-! DEFINITION. The state of the receiver (10_state.md), its reset value (10_state.md R41), and the reasons a step can stop. -/

namespace Sys2Proof.Machine

/-- The eight values of the `phase` register (10_state.md R23). -/
inductive Phase where
  | idle
  | clkidle
  | selassert
  | bitlow
  | bitsample
  | bithigh
  | seldeassert
  | decode
  deriving DecidableEq, Repr

/-- The three lines, by role (00_scope.md R12): select, clock, data-in. -/
inductive Line where
  | cs
  | sck
  | so
  deriving DecidableEq, Repr

/-- The two lines the receiver can write (20_memory.md R57). -/
inductive OutLine where
  | cs
  | sck
  deriving DecidableEq, Repr

/-- The direction of a line (00_scope.md R12). -/
inductive Direction where
  | out
  | inp
  deriving DecidableEq, Repr

/-- The three fixed delays (00_scope.md R13). -/
inductive WaitKind where
  | settle
  | low
  | high
  deriving DecidableEq, Repr

/-- An event of the pin event history (10_state.md R37). -/
inductive Event where
  | dir (line : Line) (mode : Direction)
  | drive (line : OutLine) (level : Bool)
  | wait (kind : WaitKind)
  | sample (pos : BitIdx) (bit : Bool)
  deriving DecidableEq, Repr

/-- `TemperatureReading` (00_scope.md R14): a count of quarter degrees, or the fault marker. -/
inductive Reading where
  | valid (quarters : Int)
  | fault
  deriving DecidableEq, Repr

/-- The levels the environment presents on the input ports during one step (10_state.md R34): `rst` and `start` from the
host, `so` from the device. `so = none` is a line without a defined level, for which a BITSAMPLE draws a bit
(41_sequencer.md R105, corner case d). -/
structure PortIn where
  rst : Bool
  start : Bool
  so : Option Bool
  deriving DecidableEq, Repr

/-- A host that commands nothing and a data line without a defined level. -/
def PortIn.quiet : PortIn := ⟨false, false, none⟩

/-- The state: the ten registers of 10_state.md R20 (the direction register as three bits), the ghost pin event history
(10_state.md R37), and, of the model's own, the parameters, the script of input levels and the free-value counter. -/
structure State where
  /-- R21. -/
  frame : Word
  /-- R22. -/
  bitidx : BitIdx
  /-- R23. -/
  phase : Phase
  /-- R24: the select line, active low. -/
  csN : Bool
  /-- R25. -/
  sck : Bool
  /-- R26. -/
  csOe : Bool
  sckOe : Bool
  soOe : Bool
  /-- R28. `none` is the spec's own "no value" (R40: "an option type, not ... zero"). -/
  fault : Option Bool
  /-- R29. `none` is the spec's own "no value" (R40; 42_decoder.md R120 writes it on a fault). -/
  tempQ : Option Quarters
  /-- R30. -/
  valid : Bool
  /-- R31. -/
  done : Bool
  /-- R37, oldest event first. -/
  hist : List Event
  /-- The OPEN parameters of 00_scope.md R8; no operation writes them. -/
  cfg : Config
  /-- The model's own: the input levels of this step and the coming ones, the present one first (assumption 1). -/
  inputs : List PortIn
  /-- The model's own: the number of the next free value (assumption 2). -/
  freeIdx : Nat
  deriving DecidableEq, Repr

/-- Nothing stops the machine with a fault: the device fault is a value, "not an exception", and "No other error paths
exist" (60_exceptions.md R140). The type has no constructor. -/
inductive Fault where
  deriving DecidableEq, Repr

/-- Why a step is refused. -/
inductive Refusal where
  /-- Raised by `exec` only, for an instruction without a meaning (none is left). Safe. -/
  | notModelled (mnemonic : String)
  /-- Raised by INIT when two of the three pin identifiers are equal: such a machine "is not an instance of this spec"
  (93_implementation_defined.md U6, treatment `refuse`; 92_eei_decisions.md D18). Safe. -/
  | pinsNotDistinct
  deriving DecidableEq, Repr

/-- The five line events of a construction, in the source's order of mention (40_commands.md R90, decision D28). -/
def constructionEvents (sckLevel : Bool) : List Event :=
  [.dir .cs .out, .drive .cs true, .dir .sck .out, .drive .sck sckLevel, .dir .so .inp]

/-- The state right after the first INIT of a run, with the given parameters (10_state.md R41). -/
def State.resetWith (c : Config) : State where
  frame := 0#32
  bitidx := 31#5
  phase := .idle
  csN := true
  sck := c.sckResetLevel
  csOe := true
  sckOe := true
  soOe := false
  fault := none
  tempQ := none
  valid := false
  done := false
  hist := constructionEvents c.sckResetLevel
  cfg := c
  inputs := []
  freeIdx := 0

/-- The machine right after reset, with this package's parameters (10_state.md R41; assumptions 1, 2 and 6). -/
def State.reset : State := State.resetWith Config.default

end Sys2Proof.Machine
end

