-- ==== Sys2Proof/Machine/Ops.lean ====
section
/-! DEFINITION. The named operations on lines and registers that every meaning is made of (00_scope.md R11 to R13), and the two ways a DECODE reports its verdict (60_exceptions.md R145). -/

namespace Sys2Proof.Machine

/-! ### The line primitives (00_scope.md R12, R13) -/

/-- `Emit(e)`: append an event to the pin event history (R13). -/
def emit (e : Event) (s : State) : State := { s with hist := s.hist ++ [e] }

/-- `PinDir(p, mode)` with its event (R12; 40_commands.md R90). -/
def pinDir (l : Line) (m : Direction) (s : State) : State :=
  emit (.dir l m)
    (match l with
    | .cs => { s with csOe := m == .out }
    | .sck => { s with sckOe := m == .out }
    | .so => { s with soOe := m == .out })

/-- `PinWrite(p, level)` with its event: one bit, to the output register of the line (R12). -/
def pinWrite (l : OutLine) (v : Bool) (s : State) : State :=
  emit (.drive l v)
    (match l with
    | .cs => { s with csN := v }
    | .sck => { s with sck := v })

/-- `Wait(k)`: no register changes, the event is recorded (R13; 70_reset_and_hazards.md R180). -/
def waitFor (k : WaitKind) (s : State) : State := emit (.wait k) s

/-- The input levels of this step; past the end of the script the host is quiet (assumption 1). -/
def State.port (s : State) : PortIn := s.inputs.headD PortIn.quiet

/-- `PinRead(SO)`: the level the environment presents at this moment (R12; 20_memory.md R56). A line without a defined
level gives a free bit. -/
def State.soBit (s : State) : Bool :=
  match s.port.so with
  | some b => b
  | none => Config.freeSo s.freeIdx

/-! ### The pin space by identifier (00_scope.md R12, 10_state.md R39, 20_memory.md R57) -/

/-- The identifier of a line (10_state.md R27). -/
def pinOf (c : Config) : Line → Nat
  | .cs => c.pinSel
  | .sck => c.pinClk
  | .so => c.pinDin

/-- The line an identifier names; no line has any other identifier. -/
def lineOf (c : Config) (pin : Nat) : Option Line :=
  if pin = c.pinSel then some .cs
  else if pin = c.pinClk then some .sck
  else if pin = c.pinDin then some .so
  else none

/-- `MemWrite(pin, 1 bit, v)` of R12: a write of an output line; data-in is read-only (20_memory.md R57). -/
def memWrite (pin : Nat) (v : Bool) (s : State) : Option State :=
  match lineOf s.cfg pin with
  | some .cs => some (pinWrite .cs v s)
  | some .sck => some (pinWrite .sck v s)
  | some .so => none
  | none => none

/-- `MemRead(pin, 1 bit)` of R12: data-in only; nothing reads the other lines back (20_memory.md R57). -/
def memRead (pin : Nat) (s : State) : Option Bool :=
  match lineOf s.cfg pin with
  | some .so => some s.soBit
  | some .cs => none
  | some .sck => none
  | none => none

/-! ### Register operations -/

/-- `phase <- P` (R13). -/
def setPhase (p : Phase) (s : State) : State := { s with phase := p }

/-- `done <- 0`, which every operation but DECODE performs (41_sequencer.md R100). -/
def clearDone (s : State) : State := { s with done := false }

/-- `frame <- 0; bitidx <- 31`: the accumulator before a transfer (41_sequencer.md R102, decision D9). -/
def clearFrame (s : State) : State := { s with frame := 0#32, bitidx := 31#5 }

/-- One bit placed at a position of a word: `zext_32(b) << i` (41_sequencer.md R105). -/
def bitAt (b : Bool) (i : BitIdx) : Word := (BitVec.ofBool b).setWidth 32 <<< i.toNat

/-- `frame <- frame | (zext_32(b) << bitidx)` and the event `Sample(bitidx, b)` (41_sequencer.md R105). -/
def sampleBit (b : Bool) (s : State) : State :=
  emit (.sample s.bitidx b) { s with frame := s.frame ||| bitAt b s.bitidx }

/-- The loop test of BITHIGH: at position 0 on to SELDEASSERT, else one position down and back to BITLOW
(41_sequencer.md R106). -/
def nextBit (s : State) : State :=
  if s.bitidx = 0#5 then { s with phase := .seldeassert }
  else { s with bitidx := s.bitidx - 1#5, phase := .bitlow }

/-- The registers of 40_commands.md R90 that are no line: rest in IDLE, the partial frame cleared, no result. -/
def resetRegisters (s : State) : State :=
  { s with phase := .idle, bitidx := 31#5, frame := 0#32, valid := false, done := false, fault := none, tempQ := none }

/-- Construction, the whole of INIT (40_commands.md R90). -/
def construct (s : State) : State :=
  resetRegisters
    (pinDir .so .inp
      (pinWrite .sck s.cfg.sckResetLevel
        (pinDir .sck .out
          (pinWrite .cs true
            (pinDir .cs .out s)))))

/-! ### Reporting a verdict

The block has no trap: what stands in the place of taking an exception is the report of a device fault, and there is
nothing to return from (60_exceptions.md R145, R146). -/

/-- What every DECODE writes beside the result: `valid <- 1; done <- 1; phase <- IDLE` (42_decoder.md R120). -/
def completeRead (s : State) : State := { s with valid := true, done := true, phase := .idle }

/-- "Trap entry" for the device fault, in full (60_exceptions.md R145): the flag, no temperature, control to IDLE. -/
def reportFault (s : State) : State := completeRead { s with fault := some true, tempQ := none }

/-- The report of a temperature (42_decoder.md R120, R126). -/
def reportTemp (q : Quarters) (s : State) : State := completeRead { s with fault := some false, tempQ := some q }

end Sys2Proof.Machine
end

