-- ==== Sys2Proof/Machine/Operands.lean ====
section
/-! DEFINITION. The pure functions of the decode contract (42_decoder.md R121 to R130) and the binary32 rendering of a reading (R127). -/

namespace Sys2Proof.Machine

/-- FAULTCHK (R121): any of the bottom three bits set. -/
def faultChk (f : Word) : Bool := f &&& 0x00000007#32 != 0#32

/-- EXTRACT (R122): `(f >> 18) & 0x3FFF`, a logical shift. -/
def extractField (f : Word) : Field := ((f >>> 18) &&& 0x3FFF#32).setWidth 14

/-- SEXT at any width `w` (R123): bit 13 set means all higher bits set. -/
def sextTo (w : Nat) (x : Field) : BitVec w :=
  if x.getLsbD 13 then x.setWidth w ||| ~~~((0x3FFF#14).setWidth w) else x.setWidth w

/-- SEXT at the width of `temp_q` (R123, decision D12). -/
def sext (x : Field) : Quarters := sextTo tempWidth x

/-- SCALE (R124): the exact quotient of the signed integer by 4, in degrees Celsius. -/
def scale (q : Quarters) : Rat := (q.toInt : Rat) / 4

/-- `decode` of R129: the fault test outranks the temperature (R121, R125, R126). -/
def decodeReading (f : Word) : Reading :=
  if faultChk f then .fault else .valid (sext (extractField f)).toInt

/-- `celsius` of 00_scope.md R14: undefined on the fault marker. -/
def Reading.celsius : Reading → Option Rat
  | .valid q => some ((q : Rat) / 4)
  | .fault => none

/-! ### Binary32 (R127, 30_encoding.md R84) -/

/-- `F32(Valid(q))` of R127: sign, `125 + e` as biased exponent, the bits below the top bit of `|q|` as fraction. -/
def f32OfQuarters (q : Int) : Word :=
  if q = 0 then 0#32
  else
    let sign : Nat := if q < 0 then 1 else 0
    let m := q.natAbs
    let e := m.log2
    BitVec.ofNat 32 (sign <<< 31 ||| (125 + e) <<< 23 ||| (m - 2 ^ e) <<< (23 - e))

/-- `F32` of R127: the fault marker and the absence of a reading render as the NaN of the parameters. -/
def f32Of (c : Config) : Option Reading → Word
  | none => c.nanPattern
  | some .fault => c.nanPattern
  | some (.valid q) => f32OfQuarters q

/-- The number a binary32 pattern denotes by the IEEE 754 layout (bit 31 sign, bits 30:23 biased exponent, bits 22:0
fraction: 30_encoding.md R84); none for a NaN or an infinity. It is the reader's side of R127, for claims. -/
def f32Value (w : Word) : Option Rat :=
  let sign : Rat := if w.getLsbD 31 then -1 else 1
  let expo := (w.extractLsb' 23 8).toNat
  let frac := (w.extractLsb' 0 23).toNat
  if expo = 255 then none
  else if expo = 0 then some (sign * (frac : Rat) / 2 ^ 149)
  else some (sign * ((2 ^ 23 + frac : Nat) : Rat) * 2 ^ expo / 2 ^ 150)

end Sys2Proof.Machine
end

