-- ==== Sys2Proof/Machine/Decoder.lean ====
section
/-! DEFINITION. The meanings of DECODE and of the frame classes (42_decoder.md). -/

namespace Sys2Proof.Machine

/-- DECODE (42_decoder.md R120): the verdict on the register `frame`. -/
def execDecode (s : State) : Host.Outcome State Fault Refusal :=
  .next (if faultChk s.frame then reportFault s else reportTemp (sext (extractField s.frame)) s)

/-- FRAME.TEMP (42_decoder.md R126): the temperature of the frame with these fields, through DECODE's registers. -/
def execFrameTemp (temp : Field) (ign : Ignored) (s : State) : Host.Outcome State Fault Refusal :=
  .next (reportTemp (sext (extractField (frameOf temp ign 0b000#3))) s)

/-- FRAME.FAULT_xx1 (42_decoder.md R125): the fault marker "regardless of any other field". -/
def execFrameFaultXx1 (_temp : Field) (_ign : Ignored) (_faultBits : FaultBits) (s : State) :
    Host.Outcome State Fault Refusal :=
  .next (reportFault s)

/-- FRAME.FAULT_x10 (42_decoder.md R125). -/
def execFrameFaultX10 (_temp : Field) (_ign : Ignored) (_faultBits : FaultBits) (s : State) :
    Host.Outcome State Fault Refusal :=
  .next (reportFault s)

/-- FRAME.FAULT_100 (42_decoder.md R125). -/
def execFrameFault100 (_temp : Field) (_ign : Ignored) (s : State) : Host.Outcome State Fault Refusal :=
  .next (reportFault s)

end Sys2Proof.Machine
end

