-- ==== Sys2Proof/Machine/Command.lean ====
section
/-! DEFINITION. The meanings of the host commands (40_commands.md). -/

namespace Sys2Proof.Machine

/-- INIT (40_commands.md R90): construction, in any phase. The bit `start` of its pattern has no effect. A machine whose
pin identifiers are not distinct is refused (93_implementation_defined.md U6). -/
def execInit (_start : Bool) (s : State) : Host.Outcome State Fault Refusal :=
  if s.cfg.pinsDistinct then .next (construct s) else .refused .pinsNotDistinct

/-- The acceptance of a READ: `phase <- CLKIDLE; done <- 0` (40_commands.md R91). -/
def acceptRead (s : State) : State := setPhase .clkidle (clearDone s)

/-- READ (40_commands.md R91). -/
def execRead (s : State) : Host.Outcome State Fault Refusal := .next (acceptRead s)

/-- NOP (40_commands.md R92). -/
def execNop (s : State) : Host.Outcome State Fault Refusal := .next (clearDone s)

end Sys2Proof.Machine
end

