-- ==== Sys2Proof/Machine/Sequencer.lean ====
section
/-! DEFINITION. The meanings of the seven acquisition micro-operations (41_sequencer.md). -/

namespace Sys2Proof.Machine

/-- IDLE (41_sequencer.md R101): READ or NOP, by `start`. -/
def execIdle (s : State) : Host.Outcome State Fault Refusal :=
  .next (if s.port.start then acceptRead s else clearDone s)

/-- CLKIDLE (41_sequencer.md R102). -/
def execClkidle (s : State) : Host.Outcome State Fault Refusal :=
  .next (clearDone (setPhase .selassert (clearFrame (pinWrite .sck false s))))

/-- SELASSERT (41_sequencer.md R103). -/
def execSelassert (s : State) : Host.Outcome State Fault Refusal :=
  .next (clearDone (setPhase .bitlow (waitFor .settle (pinWrite .cs false s))))

/-- BITLOW (41_sequencer.md R104). -/
def execBitlow (s : State) : Host.Outcome State Fault Refusal :=
  .next (clearDone (setPhase .bitsample (waitFor .low (pinWrite .sck false s))))

/-- BITSAMPLE (41_sequencer.md R105). -/
def execBitsample (s : State) : Host.Outcome State Fault Refusal :=
  .next (clearDone (setPhase .bithigh (sampleBit s.soBit s)))

/-- BITHIGH (41_sequencer.md R106). -/
def execBithigh (s : State) : Host.Outcome State Fault Refusal :=
  .next (clearDone (nextBit (waitFor .high (pinWrite .sck true s))))

/-- SELDEASSERT (41_sequencer.md R107). -/
def execSeldeassert (s : State) : Host.Outcome State Fault Refusal :=
  .next (clearDone (setPhase .decode (pinWrite .cs true s)))

end Sys2Proof.Machine
end

