-- ==== Sys2Proof/Machine/Dispatch.lean ====
section
/-! DEFINITION. The meaning of every instruction, one arm per row of the opcode table. -/

namespace Sys2Proof.Machine

def exec (i : Instr) (s : State) : Host.Outcome State Fault Refusal :=
  match i with
  | .init start => Sys2Proof.Machine.execInit start s
  | .read => Sys2Proof.Machine.execRead s
  | .nop => Sys2Proof.Machine.execNop s
  | .idle => Sys2Proof.Machine.execIdle s
  | .clkidle => Sys2Proof.Machine.execClkidle s
  | .selassert => Sys2Proof.Machine.execSelassert s
  | .bitlow => Sys2Proof.Machine.execBitlow s
  | .bitsample => Sys2Proof.Machine.execBitsample s
  | .bithigh => Sys2Proof.Machine.execBithigh s
  | .seldeassert => Sys2Proof.Machine.execSeldeassert s
  | .decode => Sys2Proof.Machine.execDecode s
  | .frameTemp temp ign => Sys2Proof.Machine.execFrameTemp temp ign s
  | .frameFaultXx1 temp ign faultBits => Sys2Proof.Machine.execFrameFaultXx1 temp ign faultBits s
  | .frameFaultX10 temp ign faultBits => Sys2Proof.Machine.execFrameFaultX10 temp ign faultBits s
  | .frameFault100 temp ign => Sys2Proof.Machine.execFrameFault100 temp ign s

end Sys2Proof.Machine
end

