-- ==== Sys2Proof/Machine/Flags.lean ====
section
/-! DEFINITION. What the host sees: the derived flag `busy`, the abstract reading, and the output ports (10_state.md R30 to R35). -/

namespace Sys2Proof.Machine

/-- `busy` (10_state.md R32): combinational, `phase != IDLE`. -/
def State.busy (s : State) : Bool := s.phase != .idle

/-- Port `fault` (10_state.md R28): while the register holds no value, a free one (93_implementation_defined.md U11). -/
def State.faultPort (s : State) : Bool :=
  match s.fault with
  | some b => b
  | none => Config.freeFault s.freeIdx

/-- Port `temp_q` (10_state.md R29): while the register holds no value, "hardware may drive any 16 bits"
(93_implementation_defined.md U3, U11). -/
def State.tempQPort (s : State) : Quarters :=
  match s.tempQ with
  | some q => q
  | none => Config.freeTempQ s.freeIdx

/-- `reading` (10_state.md R33): a function of `valid`, `fault` and `temp_q`. -/
def State.reading (s : State) : Option Reading :=
  if s.valid then
    if s.faultPort then some .fault else some (.valid s.tempQPort.toInt)
  else none

/-- Port `result_f32` (10_state.md R33, 42_decoder.md R127). -/
def State.resultF32 (s : State) : Word := f32Of s.cfg s.reading

/-- The output ports (10_state.md R34). -/
structure PortOut where
  csN : Bool
  sck : Bool
  csOe : Bool
  sckOe : Bool
  soOe : Bool
  busy : Bool
  done : Bool
  valid : Bool
  fault : Bool
  tempQ : Quarters
  resultF32 : Word
  deriving DecidableEq, Repr

/-- What the output ports show in a state (10_state.md R34). -/
def State.outputs (s : State) : PortOut where
  csN := s.csN
  sck := s.sck
  csOe := s.csOe
  sckOe := s.sckOe
  soOe := s.soOe
  busy := s.busy
  done := s.done
  valid := s.valid
  fault := s.faultPort
  tempQ := s.tempQPort
  resultF32 := s.resultF32

end Sys2Proof.Machine
end

