-- ==== Sys2Proof/Machine/Fetch.lean ====
section
/-! DEFINITION. Which operation a step performs: the command port first, then the phase (40_commands.md R95, 41_sequencer.md R100), and what the environment does between steps. -/

namespace Sys2Proof.Machine

/-- The SEQ encoding of a phase (10_state.md R23, 30_encoding.md R78). -/
def Phase.code : Phase → BitVec 3
  | .idle => 0b000#3
  | .clkidle => 0b001#3
  | .selassert => 0b010#3
  | .bitlow => 0b011#3
  | .bitsample => 0b100#3
  | .bithigh => 0b101#3
  | .seldeassert => 0b110#3
  | .decode => 0b111#3

/-- The phase of a SEQ encoding: all eight are used (30_encoding.md R78). -/
def Phase.ofCode (p : BitVec 3) : Phase :=
  if p = 0b000#3 then .idle
  else if p = 0b001#3 then .clkidle
  else if p = 0b010#3 then .selassert
  else if p = 0b011#3 then .bitlow
  else if p = 0b100#3 then .bitsample
  else if p = 0b101#3 then .bithigh
  else if p = 0b110#3 then .seldeassert
  else .decode

/-- The CMD pattern `{rst, start}` on the command port (30_encoding.md R77). -/
def PortIn.command (p : PortIn) : BitVec 2 := BitVec.ofBool p.rst ++ BitVec.ofBool p.start

/-- The operation of this step: INIT when `rst` is 1, else the micro-operation of the phase (40_commands.md R95). -/
def State.fetch (s : State) : Instr :=
  if s.port.rst then decode (.cmd s.port.command) else decode (.seq s.phase.code)

/-- Every pattern that selects an operation in this step, under the `when` conditions of the opcode table: CMD `1x` in any
phase; with `rst` = 0 the SEQ pattern of the phase, in IDLE the CMD pattern too, in DECODE the frame too
(30_encoding.md R77, R78, R83; 42_decoder.md R125, R126). -/
def State.selected (s : State) : List Pattern :=
  if s.port.rst then [.cmd s.port.command]
  else
    match s.phase with
    | .idle => [.seq 0b000#3, .cmd s.port.command]
    | .decode => [.seq 0b111#3, .frame s.frame]
    | p => [.seq p.code]

/-- Between steps the environment presents its next input levels, and the next free value is taken (assumptions 1, 2). -/
def State.tick (s : State) : State := { s with inputs := s.inputs.tail, freeIdx := s.freeIdx + 1 }

/-- What a step adds around `exec`: `tick` on a next state. -/
def afterStep : Host.Outcome State Fault Refusal → Host.Outcome State Fault Refusal
  | .next s => .next s.tick
  | .fault r => .fault r
  | .refused r => .refused r

/-- The state with other input levels presented in this step, the rest of the script as it was. -/
def State.withPort (s : State) (p : PortIn) : State := { s with inputs := p :: s.inputs.tail }

/-- The state in which the next step performs the operation of a pattern (assumption 9). -/
def State.withPattern (s : State) : Pattern → State
  | .cmd p =>
    let t := s.withPort { s.port with rst := p.getLsbD 1, start := p.getLsbD 0 }
    if p.getLsbD 1 then t else { t with phase := .idle }
  | .seq p => { s.withPort { s.port with rst := false } with phase := Phase.ofCode p }
  | .frame f => { s.withPort { s.port with rst := false } with phase := .decode, frame := f }

end Sys2Proof.Machine
end

