-- ==== Sys2Proof/Machine/Step.lean ====
section
/-! DEFINITION. One step of the receiver (41_sequencer.md R100, R112). -/

namespace Sys2Proof.Machine

/-- One step: the operation the inputs and the phase select, then the environment's next input levels. -/
def step (s : State) : Host.Outcome State Fault Refusal := afterStep (exec s.fetch s)

/-- The state whose next step performs the instruction of a word of the opcode table (assumption 9). -/
def State.withFetchWord (s : State) (nbits w : Nat) : State :=
  match tablePattern nbits w with
  | some p => s.withPattern p
  | none => s

end Sys2Proof.Machine
end

