-- ==== Sys2Proof/Machine/Calls.lean ====
section
/-! DEFINITION. The source's two entry points as pseudo-operations (30_encoding.md R81, R82), and what the environment presents for one READ (R76). -/

namespace Sys2Proof.Machine

/-- The serial stream of a frame in time order: sample `k` is `f[31-k]` (30_encoding.md R76). -/
def serialStream (f : Word) : List Bool := (List.range 32).map (fun k => f.getLsbD (31 - k))

/-- The input levels of one READ whose device sends `f` (the line `SO <- f` of 30_encoding.md R81 and the command
patterns `01`, then `00` 100 times, of 95_test_vectors.md section 3): sample `k` is taken in the step after 4 + 3k others. -/
def readInputs (f : Word) : List PortIn :=
  (List.range 101).map (fun n =>
    { rst := false
      start := n == 0
      so := if 4 ≤ n ∧ n % 3 = 1 then (serialStream f)[(n - 4) / 3]? else none })

/-- `ThermocoupleReader(select, clock, data-in)` (30_encoding.md R82): INIT with these pin identifiers. -/
def thermocoupleReader (sel clk din : Nat) (s : State) : Host.Outcome State Fault Refusal :=
  exec (.init false) { s with cfg := { s.cfg with pinSel := sel, pinClk := clk, pinDin := din } }

/-- The state in which the host presents a command on the port in this step: `01` READ with `start` = 1, `00` NOP with
`start` = 0 (30_encoding.md R77). The device's level in this step and the rest of the script stay as they are. -/
def State.commanding (s : State) (start : Bool) : State := s.withPort ⟨false, start, s.port.so⟩

/-- "`NOP` until `done = 1`" (30_encoding.md R82), at most `fuel` steps. -/
def nopUntilDone : Nat → State → Option State
  | 0, _ => none
  | fuel + 1, s =>
    match step (s.commanding false) with
    | .next t => if t.done then some t else nopUntilDone fuel t
    | .fault _ => none
    | .refused _ => none

/-- The blocking call as its caller sees it: "`READ` followed by `NOP` until `done = 1`" (30_encoding.md R82), and the state it
ends in. The host has no READ move while the block is busy (40_commands.md R94). After the accepting step 100
micro-operations follow, so no more NOPs are given. -/
def callRead (s : State) : Option State :=
  if s.busy then none
  else
    match step (s.commanding true) with
    | .next t => nopUntilDone 100 t
    | .fault _ => none
    | .refused _ => none

/-- `readTemperature()` (30_encoding.md R82): the call, "returning `reading`". -/
def readTemperature (s : State) : Option Reading := (callRead s).bind State.reading

end Sys2Proof.Machine
end

