-- ==== Sys2Proof/Machine/Timing.lean ====
section
/-! DEFINITION. Tick counts, beside the untimed machine (70_reset_and_hazards.md R180, R181): nothing of the step depends on them. -/

namespace Sys2Proof.Machine

/-- Ticks of one operation under the assumption of R181: an operation that waits lasts exactly its `N_k` ticks, every
other one lasts one tick. -/
def ticksOf (c : Config) : Instr → Nat
  | .selassert => c.nSettle
  | .bitlow => c.nLow
  | .bithigh => c.nHigh
  | .init _ => 1
  | .read => 1
  | .nop => 1
  | .idle => 1
  | .clkidle => 1
  | .bitsample => 1
  | .seldeassert => 1
  | .decode => 1
  | .frameTemp _ _ => 1
  | .frameFaultXx1 _ _ _ => 1
  | .frameFaultX10 _ _ _ => 1
  | .frameFault100 _ _ => 1

/-- Ticks of `k` steps from a state. -/
def runTicks : Nat → State → Nat
  | 0, _ => 0
  | k + 1, s =>
    match step s with
    | .next t => ticksOf s.cfg s.fetch + runTicks k t
    | .fault _ => ticksOf s.cfg s.fetch
    | .refused _ => ticksOf s.cfg s.fetch

/-- The formula of R181 for one READ. -/
def Config.ticksPerRead (c : Config) : Nat := 4 + c.nSettle + 32 * (c.nLow + 1 + c.nHigh)

end Sys2Proof.Machine
end

