-- ==== Sys2Proof/Safety.lean ====
section
/-! DEFINITION. What claims are stated in: the invariants of a state (10_state.md R42), the line levels and transitions a pin event history shows (10_state.md R37), and the course of one READ (41_sequencer.md R109, R110). -/

namespace Sys2Proof.Machine

/-! ### Outcomes -/

/-- The next state of an outcome, if it is one. -/
def nextOf : Host.Outcome State Fault Refusal → Option State
  | .next s => some s
  | .fault _ => none
  | .refused _ => none

/-! ### What a pin event history shows -/

/-- The level a line has after a list of events, from the level before it. -/
def levelAfter (l : OutLine) : Bool → List Event → Bool
  | v, [] => v
  | v, .drive l' w :: es => levelAfter l (if l' = l then w else v) es
  | v, .dir _ _ :: es => levelAfter l v es
  | v, .wait _ :: es => levelAfter l v es
  | v, .sample _ _ :: es => levelAfter l v es

/-- The transitions of a line to level `lvl`: the drives that change the level (10_state.md R37). -/
def transitionsTo (l : OutLine) (lvl : Bool) : Bool → List Event → Nat
  | _, [] => 0
  | v, .drive l' w :: es =>
    if l' = l then (if w = lvl ∧ v ≠ lvl then 1 else 0) + transitionsTo l lvl w es else transitionsTo l lvl v es
  | v, .dir _ _ :: es => transitionsTo l lvl v es
  | v, .wait _ :: es => transitionsTo l lvl v es
  | v, .sample _ _ :: es => transitionsTo l lvl v es

/-- The levels of select and clock before each event of a list, with the event. -/
def withLevels : Bool → Bool → List Event → List (Bool × Bool × Event)
  | _, _, [] => []
  | cs, sck, e :: es => (cs, sck, e) :: withLevels (levelAfter .cs cs [e]) (levelAfter .sck sck [e]) es

/-- An event with the drawn bit of a sample taken out of it: what the receiver itself does on the lines. -/
def Event.withoutBit : Event → Event
  | .sample i _ => .sample i false
  | .drive l v => .drive l v
  | .dir l m => .dir l m
  | .wait k => .wait k

/-- The frame positions sampled in a list of events, oldest first. -/
def samplePositions : List Event → List Nat
  | [] => []
  | .sample i _ :: es => i.toNat :: samplePositions es
  | .drive _ _ :: es => samplePositions es
  | .dir _ _ :: es => samplePositions es
  | .wait _ :: es => samplePositions es

/-! ### One READ -/

/-- The five events of one bit (41_sequencer.md R109). -/
def bitEvents (i : BitIdx) (b : Bool) : List Event :=
  [.drive .sck false, .wait .low, .sample i b, .drive .sck true, .wait .high]

/-- The events of the bit positions `k - 1` down to 0 (41_sequencer.md R109). -/
def bitsEvents (bits : Nat → Bool) : Nat → List Event
  | 0 => []
  | k + 1 => bitEvents (BitVec.ofNat 5 k) (bits k) ++ bitsEvents bits k

/-- The 164 events of one READ, `bits i` being the bit drawn for position `i` (41_sequencer.md R109). -/
def readEvents (bits : Nat → Bool) : List Event :=
  [.drive .sck false, .drive .cs false, .wait .settle] ++ bitsEvents bits 32 ++ [.drive .cs true]

/-- The input levels of the step `n` steps from now. -/
def State.portAt (s : State) (n : Nat) : PortIn := s.inputs.getD n PortIn.quiet

/-- The bit a BITSAMPLE draws in the step `n` steps from now. -/
def State.soBitAt (s : State) (n : Nat) : Bool :=
  match (s.portAt n).so with
  | some b => b
  | none => Config.freeSo (s.freeIdx + n)

/-- The bit drawn for frame position `i` by a READ accepted in the present step: that BITSAMPLE is its step
5 + 3 (31 - i) (41_sequencer.md R110), so 4 + 3 (31 - i) steps are taken before it. -/
def State.bitOfRead (s : State) (i : Nat) : Bool := s.soBitAt (4 + 3 * (31 - i))

/-- The host commands a READ now and no INIT until it ends (40_commands.md R93). -/
def State.commandsRead (s : State) : Prop :=
  s.phase = .idle ∧ s.port.start = true ∧ ∀ n, n < 101 → (s.portAt n).rst = false

/-- The phase after step `n` of a READ, 1 to 101 (41_sequencer.md R110). -/
def phaseOfRead (n : Nat) : Phase :=
  if n = 1 then .clkidle
  else if n = 2 then .selassert
  else if n = 99 then .seldeassert
  else if n = 100 then .decode
  else if n = 101 then .idle
  else if n % 3 = 0 then .bitlow
  else if n % 3 = 1 then .bitsample
  else .bithigh

/-! ### Invariants (10_state.md R42) -/

/-- R42 (a): select is high outside a transfer and low within it. -/
def State.selectFollowsPhase (s : State) : Bool :=
  match s.phase with
  | .idle | .clkidle | .selassert | .decode => s.csN
  | .bitlow | .bitsample | .bithigh | .seldeassert => !s.csN

/-- R42 (b) to (e): the clock level, the frame and the bit position that go with each phase. -/
def State.sequencerFollowsPhase (s : State) : Bool :=
  match s.phase with
  | .idle => true
  | .clkidle => true
  | .selassert => !s.sck && s.frame == 0#32 && s.bitidx == 31#5
  | .bitlow => s.sck == (s.bitidx != 31#5)
  | .bitsample => !s.sck
  | .bithigh => !s.sck
  | .seldeassert => s.sck && s.bitidx == 0#5
  | .decode => s.sck && s.bitidx == 0#5

/-- The `n` low bits of the frame are 0. -/
def State.lowBitsClear (s : State) (n : Nat) : Bool := s.frame.toNat % 2 ^ n == 0

/-- R42 (f): the frame positions not yet sampled are 0. -/
def State.unsampledBitsClear (s : State) : Bool :=
  match s.phase with
  | .bitlow => s.lowBitsClear (s.bitidx.toNat + 1)
  | .bitsample => s.lowBitsClear (s.bitidx.toNat + 1)
  | .bithigh => s.lowBitsClear s.bitidx.toNat
  | .idle | .clkidle | .selassert | .seldeassert | .decode => true

/-- R42 (g): `done` only in IDLE, after a completed READ. -/
def State.doneImpliesRest (s : State) : Bool := !s.done || (s.phase == .idle && s.valid)

/-- R42 (h): the directions. -/
def State.directionsFixed (s : State) : Bool := s.csOe && s.sckOe && !s.soOe

/-- The result registers hold values exactly as R28 to R30 and 42_decoder.md R120 say: none before the first DECODE,
then a flag, and a temperature of 14 bits' range exactly when the flag is 0. -/
def State.resultConsistent (s : State) : Bool :=
  match s.valid, s.fault, s.tempQ with
  | false, none, none => true
  | true, some true, none => true
  | true, some false, some q => decide (-8192 ≤ q.toInt ∧ q.toInt ≤ 8191)
  | _, _, _ => false

/-- The history shows the line levels: its last drives are the output registers (10_state.md R37); and in BITSAMPLE its
last two events are the drive and the wait of BITLOW (41_sequencer.md R109 (c)). -/
def State.historyShowsLines (s : State) : Bool :=
  levelAfter .cs true s.hist == s.csN && levelAfter .sck s.cfg.sckResetLevel s.hist == s.sck
    && (s.phase != .bitsample || [Event.drive .sck false, Event.wait .low].isSuffixOf s.hist)

/-- The parameters are those of a machine the spec describes. -/
def State.configured (s : State) : Bool := s.cfg.pinsDistinct

/-- The invariant of a run: R42 (a) to (h), the consistency of the result and of the history, distinct pins. -/
def State.Inv (s : State) : Bool :=
  s.selectFollowsPhase && s.sequencerFollowsPhase && s.unsampledBitsClear && s.doneImpliesRest && s.directionsFixed
    && s.resultConsistent && s.historyShowsLines && s.configured

end Sys2Proof.Machine
end

