-- ==== Sys2Proof/Certificates/Slice0/Obligations.lean ====
section
/-! DEFINITION. The statements for the provers, from the numbered rules of the spec. -/

open Sys2Proof Sys2Proof.Machine

/-! ### Encodings -/

/-- Words written out from the encodings of 30_encoding.md R77, R78 and R75 decode to the operations they stand for. -/
def Obligations.DecodesWordsOfEveryFormat : Prop :=
  decode (.cmd 0b10#2) = .init false ∧ decode (.cmd 0b11#2) = .init true ∧ decode (.cmd 0b01#2) = .read ∧
  decode (.cmd 0b00#2) = .nop ∧ decode (.seq 0b000#3) = .idle ∧ decode (.seq 0b100#3) = .bitsample ∧
  decode (.seq 0b111#3) = .decode ∧
  decode (.frame 0xF0601900#32) = .frameTemp 0x3C18#14 0x0320#15 ∧
  decode (.frame 0x06410001#32) = .frameFaultXx1 0x0190#14 0x2000#15 0b001#3 ∧
  decode (.frame 0xFFFFFFFA#32) = .frameFaultX10 0x3FFF#14 0x7FFF#15 0b010#3 ∧
  decode (.frame 0x7FFC0004#32) = .frameFault100 0x1FFF#14 0x0000#15

/-- Decode and encode agree on every well-formed instruction: no bit of an encoding is dropped (30_encoding.md R77, R78,
R75, R83). -/
def Obligations.DecodeOfEncodeIsTheInstruction : Prop :=
  ∀ i : Instr, i.WellFormed = true → decode (encode i) = i

/-- The other direction: every pattern decodes to a well-formed instruction that encodes to it again, the ignored bits of a
frame and the don't-care bit of INIT included (30_encoding.md R79: no encoding is illegal). -/
def Obligations.EncodeOfDecodeIsThePattern : Prop :=
  ∀ p : Pattern, (decode p).WellFormed = true ∧ encode (decode p) = p

/-- In each format the table's patterns are disjoint and cover every value: exactly one row fits, and it is the row of the
decoded instruction (30_encoding.md R75, R83). -/
def Obligations.ExactlyOneTableRowFitsEveryPattern : Prop :=
  ∀ p : Pattern, (opcodeTable.filter (fun r => r.fits p)).map Row.mnemonic = [(decode p).mnemonic]

/-- A number is rejected exactly when it has a bit above its format's width, and every well-formed instruction is some
number's decoding (30_encoding.md R79, R80). -/
def Obligations.DecodeRejectsExactlyTheTooWide : Prop :=
  (∀ (fmt : Format) (w : Nat), decodeBits fmt w = .error .tooWide ↔ 2 ^ fmt.width ≤ w) ∧
  ∀ i : Instr, i.WellFormed = true → decodeBits (encode i).format (encode i).bits = .ok i

/-! ### Which operation a step performs -/

/-- A step runs the decoded instruction: whatever pattern selects an operation in this step under the opcode table's
conditions (the command port, the phase register, in DECODE the frame), the step is `exec` of its decoding, followed by the
environment's next input levels (30_encoding.md R77, R78; 41_sequencer.md R100). -/
def Obligations.StepPerformsTheSelectedOperation : Prop :=
  ∀ (s : State) (p : Pattern), p ∈ s.selected →
    step s = afterStep (exec (decode p) s) ∧
    ∀ t, exec (decode p) s = .next t → step s = .next { t with inputs := t.inputs.tail, freeIdx := t.freeIdx + 1 }

/-- 40_commands.md R95: `rst` over everything; READ or NOP by `start` in IDLE; else the micro-operation of the phase. -/
def Obligations.StepObeysThePriorityOfThePort : Prop :=
  ∀ s : State,
    (s.port.rst = true → step s = afterStep (exec (.init s.port.start) s)) ∧
    (s.port.rst = false →
      (s.phase = .idle → s.port.start = true → step s = afterStep (exec .read s)) ∧
      (s.phase = .idle → s.port.start = false → step s = afterStep (exec .nop s)) ∧
      (s.phase = .clkidle → step s = afterStep (exec .clkidle s)) ∧
      (s.phase = .selassert → step s = afterStep (exec .selassert s)) ∧
      (s.phase = .bitlow → step s = afterStep (exec .bitlow s)) ∧
      (s.phase = .bitsample → step s = afterStep (exec .bitsample s)) ∧
      (s.phase = .bithigh → step s = afterStep (exec .bithigh s)) ∧
      (s.phase = .seldeassert → step s = afterStep (exec .seldeassert s)) ∧
      (s.phase = .decode → step s = afterStep (exec .decode s)))

/-- 40_commands.md R94: with `phase != IDLE` and `rst = 0` the step is the same whatever `start` is: nothing starts, is
remembered or changes. -/
def Obligations.StartIsIgnoredWhileBusy : Prop :=
  ∀ (s : State) (b : Bool), s.busy = true → s.port.rst = false →
    step (s.withPort { s.port with start := b }) = step s

/-- No operation can fail (41_sequencer.md R100; 60_exceptions.md R140): a step of a machine with distinct pins answers a
next state, with the same parameters; with equal pins exactly the step that constructs is refused (U6). -/
def Obligations.EveryStepCompletes : Prop :=
  ∀ s : State,
    (s.cfg.pinsDistinct = true → ∃ t, step s = .next t ∧ t.cfg = s.cfg) ∧
    (s.cfg.pinsDistinct = false →
      (s.port.rst = true → step s = .refused .pinsNotDistinct) ∧
      (s.port.rst = false → ∃ t, step s = .next t ∧ t.cfg = s.cfg))

/-- A word of the opcode table, placed for the next step, is the instruction that step runs; the widths are those of the
three formats (30_encoding.md R80; the placing is the model's own, assumption 9). -/
def Obligations.PlacedWordIsTheNextOperation : Prop :=
  ∀ (s : State) (nbits w : Nat) (i : Instr), decodeTableWord nbits w = some i →
    step (s.withFetchWord nbits w) = afterStep (exec i (s.withFetchWord nbits w))

/-! ### Reset and the host commands -/

/-- 10_state.md R41: the state after the first INIT of a run, for every choice of the parameters; and it is INIT's effect
on a machine whose history is empty. -/
def Obligations.ResetStateHoldsTheSpecifiedValues : Prop :=
  ∀ c : Config,
    (let r := State.resetWith c
     r.phase = .idle ∧ r.bitidx = 31#5 ∧ r.frame = 0x00000000#32 ∧ r.csN = true ∧ r.sck = c.sckResetLevel ∧
     r.csOe = true ∧ r.sckOe = true ∧ r.soOe = false ∧ r.valid = false ∧ r.done = false ∧ r.fault = none ∧
     r.tempQ = none ∧ r.busy = false ∧ r.reading = none ∧
     r.hist = [.dir .cs .out, .drive .cs true, .dir .sck .out, .drive .sck c.sckResetLevel, .dir .so .inp]) ∧
    ∀ (st : Bool) (s : State), c.pinsDistinct = true → s.cfg = c → s.hist = [] →
      exec (.init st) s = .next { State.resetWith c with inputs := s.inputs, freeIdx := s.freeIdx }

/-- 40_commands.md R90: the whole effect of INIT, from every state and whatever `start` is; and a step with `rst = 1`
performs it. Nothing else changes (the parameters, the inputs). -/
def Obligations.InitPerformsTheConstruction : Prop :=
  ∀ (st : Bool) (s : State), s.cfg.pinsDistinct = true →
    exec (.init st) s = .next
      { s with
        csOe := true, csN := true, sckOe := true, sck := s.cfg.sckResetLevel, soOe := false
        phase := .idle, bitidx := 31#5, frame := 0x00000000#32
        valid := false, done := false, fault := none, tempQ := none
        hist := s.hist ++ [.dir .cs .out, .drive .cs true, .dir .sck .out, .drive .sck s.cfg.sckResetLevel, .dir .so .inp] } ∧
    (s.port.rst = true → step s = afterStep (exec (.init st) s))

/-- 93_implementation_defined.md U6: a machine whose pin identifiers are not pairwise distinct is refused at its
construction, in every state. -/
def Obligations.InitRefusesEqualPinIdentifiers : Prop :=
  ∀ (st : Bool) (s : State),
    s.cfg.pinSel = s.cfg.pinClk ∨ s.cfg.pinSel = s.cfg.pinDin ∨ s.cfg.pinClk = s.cfg.pinDin →
    exec (.init st) s = .refused .pinsNotDistinct

/-- 40_commands.md R91: accepting a READ moves to CLKIDLE, clears `done` and touches nothing else; the block is then busy.
A step in IDLE with `rst = 0`, `start = 1` does so, the step after a DECODE included. -/
def Obligations.ReadIsAcceptedWithoutTouchingTheLines : Prop :=
  ∀ s : State,
    exec .read s = .next { s with phase := .clkidle, done := false } ∧
    State.busy { s with phase := .clkidle, done := false } = true ∧
    (s.phase = .idle → s.port.rst = false → s.port.start = true → step s = afterStep (exec .read s))

/-- 40_commands.md R92: a NOP clears `done` and changes nothing else. A step in IDLE with `rst = 0`, `start = 0` does so. -/
def Obligations.NopOnlyClearsDone : Prop :=
  ∀ s : State,
    exec .nop s = .next { s with done := false } ∧
    (s.phase = .idle → s.port.rst = false → s.port.start = false → step s = afterStep (exec .nop s))

/-- 00_scope.md R12, 20_memory.md R57: with distinct identifiers the pin space has exactly the three lines: the output lines
are written and not read, data-in is read and not written, and no other identifier reaches anything. -/
def Obligations.PinSpaceHasExactlyTheThreeLines : Prop :=
  ∀ s : State, s.cfg.pinsDistinct = true →
    (∀ v, memWrite s.cfg.pinSel v s = some (pinWrite .cs v s) ∧ memWrite s.cfg.pinClk v s = some (pinWrite .sck v s) ∧
      memWrite s.cfg.pinDin v s = none) ∧
    memRead s.cfg.pinDin s = some s.soBit ∧ memRead s.cfg.pinSel s = none ∧ memRead s.cfg.pinClk s = none ∧
    ∀ pin, pin ≠ s.cfg.pinSel → pin ≠ s.cfg.pinClk → pin ≠ s.cfg.pinDin →
      (∀ v, memWrite pin v s = none) ∧ memRead pin s = none

/-- 30_encoding.md R82: construction by the pseudo-operation gives the state after reset with the given pins and every other
parameter as it was (the history extended by the five events), or is refused where two pins are equal. -/
def Obligations.ConstructionTakesThePins : Prop :=
  ∀ (sel clk din : Nat) (s : State),
    (sel ≠ clk → sel ≠ din → clk ≠ din →
      ∃ t, thermocoupleReader sel clk din s = .next t ∧
        t.cfg = { s.cfg with pinSel := sel, pinClk := clk, pinDin := din } ∧
        t = { State.resetWith t.cfg with
              hist := s.hist ++ (State.resetWith t.cfg).hist, inputs := s.inputs, freeIdx := s.freeIdx }) ∧
    (sel = clk ∨ sel = din ∨ clk = din → thermocoupleReader sel clk din s = .refused .pinsNotDistinct)

/-! ### The sequencer -/

/-- 41_sequencer.md R101: IDLE performs READ or NOP by `start` and touches no line; select is high throughout. -/
def Obligations.IdlePerformsReadOrNopByStart : Prop :=
  ∀ s : State,
    (s.port.start = true → exec .idle s = .next { s with phase := .clkidle, done := false }) ∧
    (s.port.start = false → exec .idle s = .next { s with done := false }) ∧
    (s.Inv = true → s.phase = .idle → s.csN = true)

/-- 41_sequencer.md R102: the clock driven low, the frame cleared, the position at 31, no wait; select untouched (and
high, in its phase); the drive is a transition exactly when the clock was high. -/
def Obligations.ClkidleDrivesTheClockLowAndClearsTheFrame : Prop :=
  ∀ s : State,
    exec .clkidle s = .next
      { s with
        sck := false, frame := 0x00000000#32, bitidx := 31#5, phase := .selassert, done := false
        hist := s.hist ++ [.drive .sck false] } ∧
    transitionsTo .sck false s.sck [.drive .sck false] = (if s.sck = true then 1 else 0) ∧
    (s.Inv = true → s.phase = .clkidle → s.csN = true)

/-- 41_sequencer.md R103, R104: select driven low, then the settle wait; two waits separate that edge from the first sample
(which R103 derives from R104); the clock is low when select falls. -/
def Obligations.SelassertDrivesSelectLowAndSettles : Prop :=
  ∀ s : State,
    (∃ t, exec .selassert s = .next t ∧
      t = { s with
            csN := false, phase := .bitlow, done := false
            hist := s.hist ++ [.drive .cs false, .wait .settle] } ∧
      ∃ u, exec .bitlow t = .next u ∧
        u.hist = s.hist ++ [.drive .cs false, .wait .settle, .drive .sck false, .wait .low]) ∧
    (s.Inv = true → s.phase = .selassert → s.sck = false)

/-- 41_sequencer.md R104: the clock driven low, then the low wait, position and frame unchanged; for the first bit the
drive is no transition, for the other 31 it is one. -/
def Obligations.BitlowDrivesTheClockLowAndWaits : Prop :=
  ∀ s : State,
    exec .bitlow s = .next
      { s with sck := false, phase := .bitsample, done := false, hist := s.hist ++ [.drive .sck false, .wait .low] } ∧
    (s.Inv = true → s.phase = .bitlow →
      transitionsTo .sck false s.sck [.drive .sck false] = if s.bitidx = 31#5 then 0 else 1)

/-- 41_sequencer.md R105: one bit drawn, ORed into the frame at the current position and at no other. The bit is the level
presented on `so`; where the line has no defined level it is a free one, of any value (the model's form of the draw, entries
1 and 2). In its phase the bit was 0 before,
and the sample is taken with the clock and select low, right after the low wait. -/
def Obligations.BitsampleOrsTheDrawnBitIntoTheFrame : Prop :=
  ∀ s : State,
    (∃ (b : Bool) (f : Word),
      exec .bitsample s = .next
        { s with frame := f, phase := .bithigh, done := false, hist := s.hist ++ [.sample s.bitidx b] } ∧
      (∀ v, s.port.so = some v → b = v) ∧ (s.port.so = none → b = Config.freeSo s.freeIdx) ∧
      f = s.frame ||| ((BitVec.ofBool b).setWidth 32 <<< s.bitidx.toNat) ∧
      (∀ j, f.getLsbD j = if j = s.bitidx.toNat then s.frame.getLsbD j || b else s.frame.getLsbD j)) ∧
    (s.Inv = true → s.phase = .bitsample →
      s.frame.getLsbD s.bitidx.toNat = false ∧ s.sck = false ∧ s.csN = false ∧
        [Event.drive .sck false, Event.wait .low] <:+ s.hist)

/-- 41_sequencer.md R106: the clock driven high, then the high wait (after the last bit too); at position 0 the loop ends
and the position stays 0, else it goes down by one. In its phase the drive is always a low-to-high transition. -/
def Obligations.BithighDrivesTheClockHighAndCountsDown : Prop :=
  ∀ s : State,
    (s.bitidx = 0#5 → exec .bithigh s = .next
      { s with
        sck := true, phase := .seldeassert, done := false
        hist := s.hist ++ [.drive .sck true, .wait .high] }) ∧
    (s.bitidx ≠ 0#5 → ∃ i : BitIdx, i.toNat + 1 = s.bitidx.toNat ∧ exec .bithigh s = .next
      { s with
        sck := true, bitidx := i, phase := .bitlow, done := false
        hist := s.hist ++ [.drive .sck true, .wait .high] }) ∧
    (s.Inv = true → s.phase = .bithigh → transitionsTo .sck true s.sck [.drive .sck true] = 1)

/-- 41_sequencer.md R107: select driven high, no wait, clock and frame unchanged (the clock is left high in this phase). -/
def Obligations.SeldeassertDrivesSelectHigh : Prop :=
  ∀ s : State,
    exec .seldeassert s = .next
      { s with csN := true, phase := .decode, done := false, hist := s.hist ++ [.drive .cs true] } ∧
    (s.Inv = true → s.phase = .seldeassert → s.csN = false ∧ s.sck = true)

/-! ### The decoder -/

/-- 42_decoder.md R120: the verdict on the captured frame, flag and value in one step, no line access, no event, the frame
kept; what the host then reads is the pure decode of the frame. No other operation writes the result registers, but for the
reset that takes their values away. -/
def Obligations.DecodeReportsTheVerdictOnTheFrame : Prop :=
  ∀ s : State,
    (∃ t, exec .decode s = .next t ∧
      t = { s with
            fault := some (faultChk s.frame)
            tempQ := if faultChk s.frame = true then none else some (sext (extractField s.frame))
            valid := true, done := true, phase := .idle } ∧
      t.reading = some (if faultChk s.frame = true then .fault else .valid (sext (extractField s.frame)).toInt)) ∧
    (s.Inv = true → s.phase = .decode → s.csN = true) ∧
    ∀ t, step s = .next t → ¬ (s.port.rst = false ∧ s.phase = .decode) →
      (t.fault = s.fault ∧ t.tempQ = s.tempQ) ∨ (s.port.rst = true ∧ t.fault = none ∧ t.tempQ = none)

/-- 42_decoder.md R126, R124, R120: a frame without a fault bit is a temperature: its top 14 bits sign-extended, a quarter
degree each (`SCALE`); bits 17:3 do not matter; zero is +0. Through DECODE the flag is cleared and the value delivered; that
the operation writes all of DECODE's registers and keeps `frame` is the model's reading of "through DECODE" (entry 15). -/
def Obligations.TemperatureFrameDeliversItsField : Prop :=
  (∀ f : Word, faultChk f = false →
    decodeReading f = .valid (sext (extractField f)).toInt ∧
    (decodeReading f).celsius = some (scale (sext (extractField f))) ∧
    scale (sext (extractField f)) = ((sext (extractField f)).toInt : Rat) / 4 ∧
    decodeReading f = decodeReading (f &&& 0xFFFC0000#32)) ∧
  (∀ c : Config, f32Of c (some (decodeReading 0x00000000#32)) = 0x00000000#32) ∧
  ∀ (temp : Field) (ign : Ignored) (s : State),
    exec (.frameTemp temp ign) s = .next
      { s with fault := some false, tempQ := some (sext temp), valid := true, done := true, phase := .idle }

/-- 42_decoder.md R125, R120: a frame with a fault bit is the fault marker, whatever its other fields hold, the same for all
such frames and with no temperature in it. Through DECODE the flag is set and `temp_q` has no value; that the operation writes
all of DECODE's registers and keeps `frame` is the model's reading of "through DECODE" (entry 15). -/
def Obligations.FaultFrameDeliversTheMarkerOnly : Prop :=
  (∀ f : Word, faultChk f = true → decodeReading f = .fault ∧ (decodeReading f).celsius = none) ∧
  ∀ (i : Instr) (temp : Field) (ign : Ignored) (fb : FaultBits) (s : State),
    i = .frameFaultXx1 temp ign fb ∨ i = .frameFaultX10 temp ign fb ∨ i = .frameFault100 temp ign →
    exec i s = .next { s with fault := some true, tempQ := none, valid := true, done := true, phase := .idle }

/-- A frame class has the effect DECODE has on a frame of that class: the frame's own instruction and the micro-operation
agree (42_decoder.md R120, R125, R126). -/
def Obligations.FrameClassesAgreeWithDecode : Prop :=
  ∀ s : State, exec (decode (.frame s.frame)) s = exec .decode s

/-- 42_decoder.md R121: the test is the OR of the three bottom bits, no other bit has influence, and it decides the reading
before anything else. -/
def Obligations.FaultCheckIsTheOrOfTheBottomBits : Prop :=
  (∀ f : Word, faultChk f = (f.getLsbD 0 || f.getLsbD 1 || f.getLsbD 2)) ∧
  (∀ f g : Word, f &&& 0x00000007#32 = g &&& 0x00000007#32 → faultChk f = faultChk g) ∧
  (∀ f : Word, decodeReading f = .fault ↔ faultChk f = true) ∧
  faultChk 0xFFFFFFFF#32 = true ∧ faultChk 0x00000000#32 = false

/-- 42_decoder.md R122: the field is `f[31:18]`, the frame shifted right by 18 as an unsigned number. -/
def Obligations.ExtractionIsTheTopFourteenBits : Prop :=
  ∀ f : Word,
    extractField f = f.extractLsb' 18 14 ∧ (extractField f).toNat = f.toNat / 2 ^ 18 ∧
    ((f >>> 18) &&& 0x3FFF#32) = f >>> 18

/-- 42_decoder.md R123: the integer the sign extension denotes, at `W` = 16 and at every width of at least 14; the higher
bits are copies of bit 13. -/
def Obligations.SignExtensionDenotesTheFieldAsSigned : Prop :=
  ∀ (w : Nat) (x : Field), 14 ≤ w →
    (sextTo w x).toInt = (if x.toNat < 8192 then (x.toNat : Int) else (x.toNat : Int) - 16384) ∧
    (∀ j, j < w → (sextTo w x).getLsbD j = if j < 14 then x.getLsbD j else x.getLsbD 13) ∧
    (sext x).toInt = (sextTo w x).toInt

/-- 42_decoder.md R130: the equivalent forms of the sign extension, and the arithmetic shift of the whole frame. -/
def Obligations.SignExtensionFormsAreEquivalent : Prop :=
  (∀ (w : Nat) (x : Field), 14 ≤ w →
    (sextTo w x).toInt = (x.toNat : Int) - 16384 * (if x.getLsbD 13 = true then 1 else 0) ∧
    (sextTo w x).toInt = ((x ^^^ 0x2000#14).toNat : Int) - 0x2000 ∧
    (sextTo w x).toInt = (((x.setWidth w) <<< (w - 14)).sshiftRight (w - 14)).toInt) ∧
  ∀ f : Word,
    (sext (extractField f)).toInt = f.toInt / 2 ^ 18 ∧
    (f >>> 18).getLsbD 13 = f.getLsbD 31 ∧ ((f >>> 18) &&& 0x3FFF#32).getLsbD 13 = f.getLsbD 31

/-- 30_encoding.md R74: the reading depends on the fields `TEMP` and `FAULTBITS` alone. -/
def Obligations.IgnoredBitsDoNotMatter : Prop :=
  ∀ f g : Word, frameTempField f = frameTempField g → frameFaultField f = frameFaultField g →
    decodeReading f = decodeReading g

/-- 42_decoder.md R131: the round trip of every quarter-degree value, with any ignored bits; and the range of a reading. -/
def Obligations.EveryTemperatureRoundTrips : Prop :=
  (∀ (q : Int) (g : Ignored), -8192 ≤ q → q ≤ 8191 →
    decodeReading ((((BitVec.ofInt 32 q) &&& 0x3FFF#32) <<< 18) ||| ((g.setWidth 32) <<< 3)) = .valid q) ∧
  ∀ (f : Word) (q : Int), decodeReading f = .valid q → -8192 ≤ q ∧ q ≤ 8191

/-- 42_decoder.md R127: the binary32 rendering denotes exactly `q / 4` and is no NaN; a fault and the absence of a reading
render as the NaN pattern of the parameters, whichever it is. -/
def Obligations.BinaryRenderingIsExact : Prop :=
  (∀ (c : Config) (q : Int), -8192 ≤ q → q ≤ 8191 →
    f32Value (f32Of c (some (.valid q))) = some ((q : Rat) / 4) ∧ isNaN32 (f32Of c (some (.valid q))) = false) ∧
  (∀ c : Config, c.WellFormed = true →
    isNaN32 (f32Of c (some .fault)) = true ∧ isNaN32 (f32Of c none) = true) ∧
  ∀ c : Config, f32Of c (some .fault) = c.nanPattern ∧ f32Of c none = c.nanPattern ∧ f32Of c (some (.valid 0)) = 0#32

/-! ### What the host sees -/

/-- 10_state.md R32 to R34: `busy` is the phase's, and the reading is none, the fault marker or the value, by `valid` and
`fault`; every output port shows its register, `busy` or the rendering of the reading; `fault` and `temp_q` do so where their
registers hold values. -/
def Obligations.OutputsShowTheResultRegisters : Prop :=
  ∀ s : State,
    (s.busy = false ↔ s.phase = .idle) ∧
    (s.outputs.csN = s.csN ∧ s.outputs.sck = s.sck ∧ s.outputs.csOe = s.csOe ∧ s.outputs.sckOe = s.sckOe ∧
      s.outputs.soOe = s.soOe ∧ s.outputs.valid = s.valid ∧ s.outputs.done = s.done ∧
      (s.outputs.busy = true ↔ s.phase ≠ .idle)) ∧
    (∀ b, s.fault = some b → s.outputs.fault = b) ∧
    (∀ q, s.tempQ = some q → s.outputs.tempQ = q) ∧
    s.outputs.resultF32 = f32Of s.cfg s.reading ∧
    (s.valid = false → s.reading = none ∧ s.outputs.resultF32 = s.cfg.nanPattern) ∧
    (s.valid = true → s.fault = some true →
      s.reading = some .fault ∧ s.outputs.fault = true ∧ s.outputs.resultF32 = s.cfg.nanPattern) ∧
    (∀ q, s.valid = true → s.fault = some false → s.tempQ = some q →
      s.reading = some (.valid q.toInt) ∧ s.outputs.fault = false ∧ s.outputs.tempQ = q ∧
        s.outputs.resultF32 = f32OfQuarters q.toInt)

/-- 10_state.md R31: `done` is 1 in exactly the states a DECODE micro-operation produces. -/
def Obligations.DoneMarksExactlyTheStepsThatDecode : Prop :=
  ∀ s t : State, step s = .next t → (t.done = true ↔ s.port.rst = false ∧ s.phase = .decode)

/-- 10_state.md R33, "No intermediate states": a step leaves the reading as it was, but for INIT, which loses it, and
DECODE, which replaces it by the decode of the captured frame. -/
def Obligations.ReadingChangesOnlyAtDecodeAndInit : Prop :=
  ∀ s t : State, s.Inv = true → step s = .next t →
    t.reading =
      if s.port.rst = true then none
      else if s.phase = .decode then some (decodeReading s.frame)
      else s.reading

/-! ### Frames -/

/-- The frame of every operation: each register is unchanged but by the operations that 10_state.md R21 to R31,
20_memory.md R57 and 41_sequencer.md R111 name as its writers; the history only grows, and by nothing where no line is
touched; parameters, inputs and free-value counter are no operation's. -/
def Obligations.OperationsWriteOnlyTheirRegisters : Prop :=
  ∀ (i : Instr) (s t : State), exec i s = .next t →
    (i.mnemonic ∉ ["INIT", "CLKIDLE", "BITSAMPLE"] → t.frame = s.frame) ∧
    (i.mnemonic ∉ ["INIT", "CLKIDLE", "BITHIGH"] → t.bitidx = s.bitidx) ∧
    (i.mnemonic ∉ ["INIT", "SELASSERT", "SELDEASSERT"] → t.csN = s.csN) ∧
    (i.mnemonic ∉ ["INIT", "CLKIDLE", "BITLOW", "BITHIGH"] → t.sck = s.sck) ∧
    (i.mnemonic ≠ "INIT" → t.csOe = s.csOe ∧ t.sckOe = s.sckOe ∧ t.soOe = s.soOe) ∧
    (i.mnemonic ∉ ["INIT", "DECODE", "FRAME.TEMP", "FRAME.FAULT_xx1", "FRAME.FAULT_x10", "FRAME.FAULT_100"] →
      t.fault = s.fault ∧ t.tempQ = s.tempQ ∧ t.valid = s.valid ∧ t.done = false) ∧
    (i.mnemonic = "NOP" → t.phase = s.phase) ∧
    s.hist <+: t.hist ∧
    (i.mnemonic ∈ ["READ", "NOP", "IDLE", "DECODE", "FRAME.TEMP", "FRAME.FAULT_xx1", "FRAME.FAULT_x10",
      "FRAME.FAULT_100"] → t.hist = s.hist) ∧
    t.cfg = s.cfg ∧ t.inputs = s.inputs ∧ t.freeIdx = s.freeIdx

/-- The control of a READ does not depend on its data (10_state.md R35; 41_sequencer.md R100; 60_exceptions.md R145): two
states that agree on the sequencer position, the lines, the parameters and the command port, and differ in frame, result,
flags, history and data line as they may, take steps that agree on them again and that append the same events to their
histories, up to the bit of a sample: drives without a transition and waits included. -/
def Obligations.LineActivityIsIndependentOfTheData : Prop :=
  ∀ s₁ s₂ t₁ t₂ : State,
    s₁.phase = s₂.phase → s₁.bitidx = s₂.bitidx → s₁.csN = s₂.csN → s₁.sck = s₂.sck →
    s₁.csOe = s₂.csOe → s₁.sckOe = s₂.sckOe → s₁.soOe = s₂.soOe → s₁.cfg = s₂.cfg →
    s₁.port.rst = s₂.port.rst → s₁.port.start = s₂.port.start →
    step s₁ = .next t₁ → step s₂ = .next t₂ →
    t₁.phase = t₂.phase ∧ t₁.bitidx = t₂.bitidx ∧ t₁.csN = t₂.csN ∧ t₁.sck = t₂.sck ∧
      t₁.csOe = t₂.csOe ∧ t₁.sckOe = t₂.sckOe ∧ t₁.soOe = t₂.soOe ∧ t₁.cfg = t₂.cfg ∧
      ∃ es₁ es₂ : List Event, t₁.hist = s₁.hist ++ es₁ ∧ t₂.hist = s₂.hist ++ es₂ ∧
        es₁.map Event.withoutBit = es₂.map Event.withoutBit

/-! ### Invariants -/

/-- Every step keeps the invariant: 10_state.md R42 (a) to (h), the consistency of the result registers, the history that
shows the lines. From every state that has it, not only from those a run reaches. -/
def Obligations.EveryStepKeepsTheInvariant : Prop :=
  ∀ s t : State, s.Inv = true → step s = .next t → t.Inv = true

/-- The invariant holds after reset, for every choice of the parameters with distinct pins. -/
def Obligations.ResetHasTheInvariant : Prop :=
  ∀ c : Config, c.pinsDistinct = true → (State.resetWith c).Inv = true

/-- 41_sequencer.md R109 (c), 70_reset_and_hazards.md R175: among the events that a step adds, however many, there is a sample
only where select and clock are low, both before and after, the low wait has just been done, and the position is the
counter's; and then it is the one event added. -/
def Obligations.SamplesOnlyWhileTheClockIsLow : Prop :=
  ∀ (s t : State) (es : List Event) (i : BitIdx) (b : Bool), s.Inv = true → step s = .next t →
    t.hist = s.hist ++ es → Event.sample i b ∈ es →
    es = [.sample i b] ∧ i = s.bitidx ∧ s.csN = false ∧ s.sck = false ∧ t.csN = false ∧ t.sck = false ∧
      [Event.drive .sck false, Event.wait .low] <:+ s.hist

/-! ### One whole READ -/

/-- 40_commands.md R93: the whole effect of one READ, 101 steps without `rst`, from every state at rest: the frame is the 32
bits drawn, the first at bit 31; the verdict is on that frame; the lines end with select and clock high; the history grows
by the 164 events; nothing else changes. -/
def Obligations.ReadHasItsWholeEffect : Prop :=
  ∀ s : State, s.commandsRead →
    ∃ f : Word, (∀ i, i < 32 → f.getLsbD i = s.bitOfRead i) ∧
      core.run 101 s = .next
        { s with
          frame := f, bitidx := 0#5, phase := .idle, csN := true, sck := true, valid := true, done := true
          fault := some (faultChk f)
          tempQ := if faultChk f = true then none else some (sext (extractField f))
          hist := s.hist ++ readEvents s.bitOfRead
          inputs := s.inputs.drop 101, freeIdx := s.freeIdx + 101 }

/-- 20_memory.md R51, 30_encoding.md R76, 40_commands.md R93: a frame presented on the data line, most significant bit first,
is the frame received, and its decode is what the host reads; the environment's further inputs are untouched. -/
def Obligations.PresentedFrameIsDelivered : Prop :=
  ∀ (s : State) (f : Word) (rest : List PortIn), s.phase = .idle → s.inputs = readInputs f ++ rest →
    ∃ t : State, core.run 101 s = .next t ∧ t.frame = f ∧ t.reading = some (decodeReading f) ∧ t.done = true ∧
      t.inputs = rest

/-- 30_encoding.md R82, 42_decoder.md R129: `readTemperature()` commands a READ and then NOPs until `done`, whatever the script
holds for `rst` and `start`, and returns the decode of the frame of the 32 bits drawn: with the whole effect of one READ, and
for a device that presents `f` with the decode of `f`. While the block is busy the host has no such call (40_commands.md R94;
that it then answers none is the model's form, entry 21). -/
def Obligations.ReadTemperatureReturnsTheDecodedFrame : Prop :=
  ∀ s : State,
    (s.phase = .idle →
      ∃ f : Word, (∀ i, i < 32 → f.getLsbD i = s.bitOfRead i) ∧
        callRead s = some
          { s with
            frame := f, bitidx := 0#5, phase := .idle, csN := true, sck := true, valid := true, done := true
            fault := some (faultChk f)
            tempQ := if faultChk f = true then none else some (sext (extractField f))
            hist := s.hist ++ readEvents s.bitOfRead
            inputs := s.inputs.drop 101, freeIdx := s.freeIdx + 101 } ∧
        readTemperature s = some (decodeReading f)) ∧
    (∀ f : Word, s.phase = .idle →
      (∀ k, k < 32 → (s.portAt (4 + 3 * k)).so = (serialStream f)[k]?) → readTemperature s = some (decodeReading f)) ∧
    (s.phase ≠ .idle → readTemperature s = none)

/-- 41_sequencer.md R110: the phase, the bit position, select, `busy` and `done` after each of the 101 steps. -/
def Obligations.ReadFollowsTheStepTable : Prop :=
  ∀ (s : State) (n : Nat), s.commandsRead → s.csN = true → 1 ≤ n → n ≤ 101 →
    ∃ t : State, core.run n s = .next t ∧ t.phase = phaseOfRead n ∧
      (2 ≤ n → t.bitidx.toNat = 31 - min ((n - 3) / 3) 31) ∧
      (t.csN = false ↔ 3 ≤ n ∧ n ≤ 99) ∧ (t.busy = true ↔ n ≠ 101) ∧ (t.done = true ↔ n = 101)

/-- 41_sequencer.md R109 (a) to (f), the source's acquisition-ordering property: what one READ adds to the history has
exactly 32 low-to-high clock transitions, 31 high-to-low ones and one more if the clock was high, one fall and one rise of
select, one sample for each position from 31 down to 0, every one with select and clock low and right after the low wait,
and no clock transition between the fall of select and the first sample. -/
def Obligations.ReadIsOrderedOnTheLines : Prop :=
  ∀ s : State, s.commandsRead → s.csN = true →
    ∃ (t : State) (es : List Event), core.run 101 s = .next t ∧ t.hist = s.hist ++ es ∧ es.length = 164 ∧
      transitionsTo .sck true s.sck es = 32 ∧
      transitionsTo .sck false s.sck es = 31 + (if s.sck = true then 1 else 0) ∧
      transitionsTo .cs false s.csN es = 1 ∧ transitionsTo .cs true s.csN es = 1 ∧
      samplePositions es = (List.range 32).reverse ∧
      (∀ x ∈ withLevels s.csN s.sck es, ∀ i b, x.2.2 = Event.sample i b →
        x.1 = false ∧ x.2.1 = false ∧ b = s.bitOfRead i.toNat) ∧
      (∀ before i b after, es = before ++ Event.sample i b :: after →
        [Event.drive .sck false, Event.wait .low] <:+ before) ∧
      es.take 6 = [.drive .sck false, .drive .cs false, .wait .settle, .drive .sck false, .wait .low,
        .sample 31#5 (s.bitOfRead 31)]

/-- 41_sequencer.md R108: a READ in progress ends, from any of its phases and any bit position, within 100 steps without
`rst`, whatever is sampled and whatever `start` does. -/
def Obligations.EveryReadEnds : Prop :=
  ∀ s : State, s.busy = true → (∀ n, n < 100 → (s.portAt n).rst = false) →
    ∃ (n : Nat) (t : State), n ≤ 100 ∧ core.run n s = .next t ∧ t.phase = .idle ∧ t.done = true ∧ t.valid = true

/-- 60_exceptions.md R148: a data line stuck low reads as 0.0 °C without a fault, a line stuck high as a fault. -/
def Obligations.StuckLineIsNotDetected : Prop :=
  ∀ (s : State) (b : Bool), s.commandsRead → (∀ i, i < 32 → s.bitOfRead i = b) →
    ∃ t : State, core.run 101 s = .next t ∧
      t.reading = some (if b = true then .fault else .valid 0) ∧ t.fault = some b

/-- 70_reset_and_hazards.md R181: the ticks of one READ under the rule's assumption on how long each operation lasts. -/
def Obligations.ReadTakesTheTicksOfTheFormula : Prop :=
  ∀ s : State, s.commandsRead →
    runTicks 101 s = 4 + s.cfg.nSettle + 32 * (s.cfg.nLow + 1 + s.cfg.nHigh)
end

