-- ==== Sys2Proof/Laws/State.lean ====
section
/-! SUPPORT. What each state operation leaves in each field, one lemma per field, so that no later proof unfolds a record update. -/

namespace Sys2Proof.Machine

/-! ### emit -/

@[simp] theorem emit_frame (e : Event) (s : State) : (emit e s).frame = s.frame := rfl
@[simp] theorem emit_bitidx (e : Event) (s : State) : (emit e s).bitidx = s.bitidx := rfl
@[simp] theorem emit_phase (e : Event) (s : State) : (emit e s).phase = s.phase := rfl
@[simp] theorem emit_csN (e : Event) (s : State) : (emit e s).csN = s.csN := rfl
@[simp] theorem emit_sck (e : Event) (s : State) : (emit e s).sck = s.sck := rfl
@[simp] theorem emit_csOe (e : Event) (s : State) : (emit e s).csOe = s.csOe := rfl
@[simp] theorem emit_sckOe (e : Event) (s : State) : (emit e s).sckOe = s.sckOe := rfl
@[simp] theorem emit_soOe (e : Event) (s : State) : (emit e s).soOe = s.soOe := rfl
@[simp] theorem emit_fault (e : Event) (s : State) : (emit e s).fault = s.fault := rfl
@[simp] theorem emit_tempQ (e : Event) (s : State) : (emit e s).tempQ = s.tempQ := rfl
@[simp] theorem emit_valid (e : Event) (s : State) : (emit e s).valid = s.valid := rfl
@[simp] theorem emit_done (e : Event) (s : State) : (emit e s).done = s.done := rfl
@[simp] theorem emit_hist (e : Event) (s : State) : (emit e s).hist = s.hist ++ [e] := rfl
@[simp] theorem emit_cfg (e : Event) (s : State) : (emit e s).cfg = s.cfg := rfl
@[simp] theorem emit_inputs (e : Event) (s : State) : (emit e s).inputs = s.inputs := rfl
@[simp] theorem emit_freeIdx (e : Event) (s : State) : (emit e s).freeIdx = s.freeIdx := rfl

/-! ### pinDir_cs -/

@[simp] theorem pinDir_cs_frame (m : Direction) (s : State) : (pinDir .cs m s).frame = s.frame := rfl
@[simp] theorem pinDir_cs_bitidx (m : Direction) (s : State) : (pinDir .cs m s).bitidx = s.bitidx := rfl
@[simp] theorem pinDir_cs_phase (m : Direction) (s : State) : (pinDir .cs m s).phase = s.phase := rfl
@[simp] theorem pinDir_cs_csN (m : Direction) (s : State) : (pinDir .cs m s).csN = s.csN := rfl
@[simp] theorem pinDir_cs_sck (m : Direction) (s : State) : (pinDir .cs m s).sck = s.sck := rfl
@[simp] theorem pinDir_cs_csOe (m : Direction) (s : State) : (pinDir .cs m s).csOe = (m == .out) := rfl
@[simp] theorem pinDir_cs_sckOe (m : Direction) (s : State) : (pinDir .cs m s).sckOe = s.sckOe := rfl
@[simp] theorem pinDir_cs_soOe (m : Direction) (s : State) : (pinDir .cs m s).soOe = s.soOe := rfl
@[simp] theorem pinDir_cs_fault (m : Direction) (s : State) : (pinDir .cs m s).fault = s.fault := rfl
@[simp] theorem pinDir_cs_tempQ (m : Direction) (s : State) : (pinDir .cs m s).tempQ = s.tempQ := rfl
@[simp] theorem pinDir_cs_valid (m : Direction) (s : State) : (pinDir .cs m s).valid = s.valid := rfl
@[simp] theorem pinDir_cs_done (m : Direction) (s : State) : (pinDir .cs m s).done = s.done := rfl
@[simp] theorem pinDir_cs_hist (m : Direction) (s : State) : (pinDir .cs m s).hist = s.hist ++ [.dir .cs m] := rfl
@[simp] theorem pinDir_cs_cfg (m : Direction) (s : State) : (pinDir .cs m s).cfg = s.cfg := rfl
@[simp] theorem pinDir_cs_inputs (m : Direction) (s : State) : (pinDir .cs m s).inputs = s.inputs := rfl
@[simp] theorem pinDir_cs_freeIdx (m : Direction) (s : State) : (pinDir .cs m s).freeIdx = s.freeIdx := rfl

/-! ### pinDir_sck -/

@[simp] theorem pinDir_sck_frame (m : Direction) (s : State) : (pinDir .sck m s).frame = s.frame := rfl
@[simp] theorem pinDir_sck_bitidx (m : Direction) (s : State) : (pinDir .sck m s).bitidx = s.bitidx := rfl
@[simp] theorem pinDir_sck_phase (m : Direction) (s : State) : (pinDir .sck m s).phase = s.phase := rfl
@[simp] theorem pinDir_sck_csN (m : Direction) (s : State) : (pinDir .sck m s).csN = s.csN := rfl
@[simp] theorem pinDir_sck_sck (m : Direction) (s : State) : (pinDir .sck m s).sck = s.sck := rfl
@[simp] theorem pinDir_sck_csOe (m : Direction) (s : State) : (pinDir .sck m s).csOe = s.csOe := rfl
@[simp] theorem pinDir_sck_sckOe (m : Direction) (s : State) : (pinDir .sck m s).sckOe = (m == .out) := rfl
@[simp] theorem pinDir_sck_soOe (m : Direction) (s : State) : (pinDir .sck m s).soOe = s.soOe := rfl
@[simp] theorem pinDir_sck_fault (m : Direction) (s : State) : (pinDir .sck m s).fault = s.fault := rfl
@[simp] theorem pinDir_sck_tempQ (m : Direction) (s : State) : (pinDir .sck m s).tempQ = s.tempQ := rfl
@[simp] theorem pinDir_sck_valid (m : Direction) (s : State) : (pinDir .sck m s).valid = s.valid := rfl
@[simp] theorem pinDir_sck_done (m : Direction) (s : State) : (pinDir .sck m s).done = s.done := rfl
@[simp] theorem pinDir_sck_hist (m : Direction) (s : State) : (pinDir .sck m s).hist = s.hist ++ [.dir .sck m] := rfl
@[simp] theorem pinDir_sck_cfg (m : Direction) (s : State) : (pinDir .sck m s).cfg = s.cfg := rfl
@[simp] theorem pinDir_sck_inputs (m : Direction) (s : State) : (pinDir .sck m s).inputs = s.inputs := rfl
@[simp] theorem pinDir_sck_freeIdx (m : Direction) (s : State) : (pinDir .sck m s).freeIdx = s.freeIdx := rfl

/-! ### pinDir_so -/

@[simp] theorem pinDir_so_frame (m : Direction) (s : State) : (pinDir .so m s).frame = s.frame := rfl
@[simp] theorem pinDir_so_bitidx (m : Direction) (s : State) : (pinDir .so m s).bitidx = s.bitidx := rfl
@[simp] theorem pinDir_so_phase (m : Direction) (s : State) : (pinDir .so m s).phase = s.phase := rfl
@[simp] theorem pinDir_so_csN (m : Direction) (s : State) : (pinDir .so m s).csN = s.csN := rfl
@[simp] theorem pinDir_so_sck (m : Direction) (s : State) : (pinDir .so m s).sck = s.sck := rfl
@[simp] theorem pinDir_so_csOe (m : Direction) (s : State) : (pinDir .so m s).csOe = s.csOe := rfl
@[simp] theorem pinDir_so_sckOe (m : Direction) (s : State) : (pinDir .so m s).sckOe = s.sckOe := rfl
@[simp] theorem pinDir_so_soOe (m : Direction) (s : State) : (pinDir .so m s).soOe = (m == .out) := rfl
@[simp] theorem pinDir_so_fault (m : Direction) (s : State) : (pinDir .so m s).fault = s.fault := rfl
@[simp] theorem pinDir_so_tempQ (m : Direction) (s : State) : (pinDir .so m s).tempQ = s.tempQ := rfl
@[simp] theorem pinDir_so_valid (m : Direction) (s : State) : (pinDir .so m s).valid = s.valid := rfl
@[simp] theorem pinDir_so_done (m : Direction) (s : State) : (pinDir .so m s).done = s.done := rfl
@[simp] theorem pinDir_so_hist (m : Direction) (s : State) : (pinDir .so m s).hist = s.hist ++ [.dir .so m] := rfl
@[simp] theorem pinDir_so_cfg (m : Direction) (s : State) : (pinDir .so m s).cfg = s.cfg := rfl
@[simp] theorem pinDir_so_inputs (m : Direction) (s : State) : (pinDir .so m s).inputs = s.inputs := rfl
@[simp] theorem pinDir_so_freeIdx (m : Direction) (s : State) : (pinDir .so m s).freeIdx = s.freeIdx := rfl

/-! ### pinWrite_cs -/

@[simp] theorem pinWrite_cs_frame (v : Bool) (s : State) : (pinWrite .cs v s).frame = s.frame := rfl
@[simp] theorem pinWrite_cs_bitidx (v : Bool) (s : State) : (pinWrite .cs v s).bitidx = s.bitidx := rfl
@[simp] theorem pinWrite_cs_phase (v : Bool) (s : State) : (pinWrite .cs v s).phase = s.phase := rfl
@[simp] theorem pinWrite_cs_csN (v : Bool) (s : State) : (pinWrite .cs v s).csN = v := rfl
@[simp] theorem pinWrite_cs_sck (v : Bool) (s : State) : (pinWrite .cs v s).sck = s.sck := rfl
@[simp] theorem pinWrite_cs_csOe (v : Bool) (s : State) : (pinWrite .cs v s).csOe = s.csOe := rfl
@[simp] theorem pinWrite_cs_sckOe (v : Bool) (s : State) : (pinWrite .cs v s).sckOe = s.sckOe := rfl
@[simp] theorem pinWrite_cs_soOe (v : Bool) (s : State) : (pinWrite .cs v s).soOe = s.soOe := rfl
@[simp] theorem pinWrite_cs_fault (v : Bool) (s : State) : (pinWrite .cs v s).fault = s.fault := rfl
@[simp] theorem pinWrite_cs_tempQ (v : Bool) (s : State) : (pinWrite .cs v s).tempQ = s.tempQ := rfl
@[simp] theorem pinWrite_cs_valid (v : Bool) (s : State) : (pinWrite .cs v s).valid = s.valid := rfl
@[simp] theorem pinWrite_cs_done (v : Bool) (s : State) : (pinWrite .cs v s).done = s.done := rfl
@[simp] theorem pinWrite_cs_hist (v : Bool) (s : State) : (pinWrite .cs v s).hist = s.hist ++ [.drive .cs v] := rfl
@[simp] theorem pinWrite_cs_cfg (v : Bool) (s : State) : (pinWrite .cs v s).cfg = s.cfg := rfl
@[simp] theorem pinWrite_cs_inputs (v : Bool) (s : State) : (pinWrite .cs v s).inputs = s.inputs := rfl
@[simp] theorem pinWrite_cs_freeIdx (v : Bool) (s : State) : (pinWrite .cs v s).freeIdx = s.freeIdx := rfl

/-! ### pinWrite_sck -/

@[simp] theorem pinWrite_sck_frame (v : Bool) (s : State) : (pinWrite .sck v s).frame = s.frame := rfl
@[simp] theorem pinWrite_sck_bitidx (v : Bool) (s : State) : (pinWrite .sck v s).bitidx = s.bitidx := rfl
@[simp] theorem pinWrite_sck_phase (v : Bool) (s : State) : (pinWrite .sck v s).phase = s.phase := rfl
@[simp] theorem pinWrite_sck_csN (v : Bool) (s : State) : (pinWrite .sck v s).csN = s.csN := rfl
@[simp] theorem pinWrite_sck_sck (v : Bool) (s : State) : (pinWrite .sck v s).sck = v := rfl
@[simp] theorem pinWrite_sck_csOe (v : Bool) (s : State) : (pinWrite .sck v s).csOe = s.csOe := rfl
@[simp] theorem pinWrite_sck_sckOe (v : Bool) (s : State) : (pinWrite .sck v s).sckOe = s.sckOe := rfl
@[simp] theorem pinWrite_sck_soOe (v : Bool) (s : State) : (pinWrite .sck v s).soOe = s.soOe := rfl
@[simp] theorem pinWrite_sck_fault (v : Bool) (s : State) : (pinWrite .sck v s).fault = s.fault := rfl
@[simp] theorem pinWrite_sck_tempQ (v : Bool) (s : State) : (pinWrite .sck v s).tempQ = s.tempQ := rfl
@[simp] theorem pinWrite_sck_valid (v : Bool) (s : State) : (pinWrite .sck v s).valid = s.valid := rfl
@[simp] theorem pinWrite_sck_done (v : Bool) (s : State) : (pinWrite .sck v s).done = s.done := rfl
@[simp] theorem pinWrite_sck_hist (v : Bool) (s : State) : (pinWrite .sck v s).hist = s.hist ++ [.drive .sck v] := rfl
@[simp] theorem pinWrite_sck_cfg (v : Bool) (s : State) : (pinWrite .sck v s).cfg = s.cfg := rfl
@[simp] theorem pinWrite_sck_inputs (v : Bool) (s : State) : (pinWrite .sck v s).inputs = s.inputs := rfl
@[simp] theorem pinWrite_sck_freeIdx (v : Bool) (s : State) : (pinWrite .sck v s).freeIdx = s.freeIdx := rfl

/-! ### waitFor -/

@[simp] theorem waitFor_frame (k : WaitKind) (s : State) : (waitFor k s).frame = s.frame := rfl
@[simp] theorem waitFor_bitidx (k : WaitKind) (s : State) : (waitFor k s).bitidx = s.bitidx := rfl
@[simp] theorem waitFor_phase (k : WaitKind) (s : State) : (waitFor k s).phase = s.phase := rfl
@[simp] theorem waitFor_csN (k : WaitKind) (s : State) : (waitFor k s).csN = s.csN := rfl
@[simp] theorem waitFor_sck (k : WaitKind) (s : State) : (waitFor k s).sck = s.sck := rfl
@[simp] theorem waitFor_csOe (k : WaitKind) (s : State) : (waitFor k s).csOe = s.csOe := rfl
@[simp] theorem waitFor_sckOe (k : WaitKind) (s : State) : (waitFor k s).sckOe = s.sckOe := rfl
@[simp] theorem waitFor_soOe (k : WaitKind) (s : State) : (waitFor k s).soOe = s.soOe := rfl
@[simp] theorem waitFor_fault (k : WaitKind) (s : State) : (waitFor k s).fault = s.fault := rfl
@[simp] theorem waitFor_tempQ (k : WaitKind) (s : State) : (waitFor k s).tempQ = s.tempQ := rfl
@[simp] theorem waitFor_valid (k : WaitKind) (s : State) : (waitFor k s).valid = s.valid := rfl
@[simp] theorem waitFor_done (k : WaitKind) (s : State) : (waitFor k s).done = s.done := rfl
@[simp] theorem waitFor_hist (k : WaitKind) (s : State) : (waitFor k s).hist = s.hist ++ [.wait k] := rfl
@[simp] theorem waitFor_cfg (k : WaitKind) (s : State) : (waitFor k s).cfg = s.cfg := rfl
@[simp] theorem waitFor_inputs (k : WaitKind) (s : State) : (waitFor k s).inputs = s.inputs := rfl
@[simp] theorem waitFor_freeIdx (k : WaitKind) (s : State) : (waitFor k s).freeIdx = s.freeIdx := rfl

/-! ### setPhase -/

@[simp] theorem setPhase_frame (p : Phase) (s : State) : (setPhase p s).frame = s.frame := rfl
@[simp] theorem setPhase_bitidx (p : Phase) (s : State) : (setPhase p s).bitidx = s.bitidx := rfl
@[simp] theorem setPhase_phase (p : Phase) (s : State) : (setPhase p s).phase = p := rfl
@[simp] theorem setPhase_csN (p : Phase) (s : State) : (setPhase p s).csN = s.csN := rfl
@[simp] theorem setPhase_sck (p : Phase) (s : State) : (setPhase p s).sck = s.sck := rfl
@[simp] theorem setPhase_csOe (p : Phase) (s : State) : (setPhase p s).csOe = s.csOe := rfl
@[simp] theorem setPhase_sckOe (p : Phase) (s : State) : (setPhase p s).sckOe = s.sckOe := rfl
@[simp] theorem setPhase_soOe (p : Phase) (s : State) : (setPhase p s).soOe = s.soOe := rfl
@[simp] theorem setPhase_fault (p : Phase) (s : State) : (setPhase p s).fault = s.fault := rfl
@[simp] theorem setPhase_tempQ (p : Phase) (s : State) : (setPhase p s).tempQ = s.tempQ := rfl
@[simp] theorem setPhase_valid (p : Phase) (s : State) : (setPhase p s).valid = s.valid := rfl
@[simp] theorem setPhase_done (p : Phase) (s : State) : (setPhase p s).done = s.done := rfl
@[simp] theorem setPhase_hist (p : Phase) (s : State) : (setPhase p s).hist = s.hist := rfl
@[simp] theorem setPhase_cfg (p : Phase) (s : State) : (setPhase p s).cfg = s.cfg := rfl
@[simp] theorem setPhase_inputs (p : Phase) (s : State) : (setPhase p s).inputs = s.inputs := rfl
@[simp] theorem setPhase_freeIdx (p : Phase) (s : State) : (setPhase p s).freeIdx = s.freeIdx := rfl

/-! ### clearDone -/

@[simp] theorem clearDone_frame (s : State) : (clearDone s).frame = s.frame := rfl
@[simp] theorem clearDone_bitidx (s : State) : (clearDone s).bitidx = s.bitidx := rfl
@[simp] theorem clearDone_phase (s : State) : (clearDone s).phase = s.phase := rfl
@[simp] theorem clearDone_csN (s : State) : (clearDone s).csN = s.csN := rfl
@[simp] theorem clearDone_sck (s : State) : (clearDone s).sck = s.sck := rfl
@[simp] theorem clearDone_csOe (s : State) : (clearDone s).csOe = s.csOe := rfl
@[simp] theorem clearDone_sckOe (s : State) : (clearDone s).sckOe = s.sckOe := rfl
@[simp] theorem clearDone_soOe (s : State) : (clearDone s).soOe = s.soOe := rfl
@[simp] theorem clearDone_fault (s : State) : (clearDone s).fault = s.fault := rfl
@[simp] theorem clearDone_tempQ (s : State) : (clearDone s).tempQ = s.tempQ := rfl
@[simp] theorem clearDone_valid (s : State) : (clearDone s).valid = s.valid := rfl
@[simp] theorem clearDone_done (s : State) : (clearDone s).done = false := rfl
@[simp] theorem clearDone_hist (s : State) : (clearDone s).hist = s.hist := rfl
@[simp] theorem clearDone_cfg (s : State) : (clearDone s).cfg = s.cfg := rfl
@[simp] theorem clearDone_inputs (s : State) : (clearDone s).inputs = s.inputs := rfl
@[simp] theorem clearDone_freeIdx (s : State) : (clearDone s).freeIdx = s.freeIdx := rfl

/-! ### clearFrame -/

@[simp] theorem clearFrame_frame (s : State) : (clearFrame s).frame = 0#32 := rfl
@[simp] theorem clearFrame_bitidx (s : State) : (clearFrame s).bitidx = 31#5 := rfl
@[simp] theorem clearFrame_phase (s : State) : (clearFrame s).phase = s.phase := rfl
@[simp] theorem clearFrame_csN (s : State) : (clearFrame s).csN = s.csN := rfl
@[simp] theorem clearFrame_sck (s : State) : (clearFrame s).sck = s.sck := rfl
@[simp] theorem clearFrame_csOe (s : State) : (clearFrame s).csOe = s.csOe := rfl
@[simp] theorem clearFrame_sckOe (s : State) : (clearFrame s).sckOe = s.sckOe := rfl
@[simp] theorem clearFrame_soOe (s : State) : (clearFrame s).soOe = s.soOe := rfl
@[simp] theorem clearFrame_fault (s : State) : (clearFrame s).fault = s.fault := rfl
@[simp] theorem clearFrame_tempQ (s : State) : (clearFrame s).tempQ = s.tempQ := rfl
@[simp] theorem clearFrame_valid (s : State) : (clearFrame s).valid = s.valid := rfl
@[simp] theorem clearFrame_done (s : State) : (clearFrame s).done = s.done := rfl
@[simp] theorem clearFrame_hist (s : State) : (clearFrame s).hist = s.hist := rfl
@[simp] theorem clearFrame_cfg (s : State) : (clearFrame s).cfg = s.cfg := rfl
@[simp] theorem clearFrame_inputs (s : State) : (clearFrame s).inputs = s.inputs := rfl
@[simp] theorem clearFrame_freeIdx (s : State) : (clearFrame s).freeIdx = s.freeIdx := rfl

/-! ### sampleBit -/

@[simp] theorem sampleBit_frame (b : Bool) (s : State) : (sampleBit b s).frame = s.frame ||| bitAt b s.bitidx := rfl
@[simp] theorem sampleBit_bitidx (b : Bool) (s : State) : (sampleBit b s).bitidx = s.bitidx := rfl
@[simp] theorem sampleBit_phase (b : Bool) (s : State) : (sampleBit b s).phase = s.phase := rfl
@[simp] theorem sampleBit_csN (b : Bool) (s : State) : (sampleBit b s).csN = s.csN := rfl
@[simp] theorem sampleBit_sck (b : Bool) (s : State) : (sampleBit b s).sck = s.sck := rfl
@[simp] theorem sampleBit_csOe (b : Bool) (s : State) : (sampleBit b s).csOe = s.csOe := rfl
@[simp] theorem sampleBit_sckOe (b : Bool) (s : State) : (sampleBit b s).sckOe = s.sckOe := rfl
@[simp] theorem sampleBit_soOe (b : Bool) (s : State) : (sampleBit b s).soOe = s.soOe := rfl
@[simp] theorem sampleBit_fault (b : Bool) (s : State) : (sampleBit b s).fault = s.fault := rfl
@[simp] theorem sampleBit_tempQ (b : Bool) (s : State) : (sampleBit b s).tempQ = s.tempQ := rfl
@[simp] theorem sampleBit_valid (b : Bool) (s : State) : (sampleBit b s).valid = s.valid := rfl
@[simp] theorem sampleBit_done (b : Bool) (s : State) : (sampleBit b s).done = s.done := rfl
@[simp] theorem sampleBit_hist (b : Bool) (s : State) : (sampleBit b s).hist = s.hist ++ [.sample s.bitidx b] := rfl
@[simp] theorem sampleBit_cfg (b : Bool) (s : State) : (sampleBit b s).cfg = s.cfg := rfl
@[simp] theorem sampleBit_inputs (b : Bool) (s : State) : (sampleBit b s).inputs = s.inputs := rfl
@[simp] theorem sampleBit_freeIdx (b : Bool) (s : State) : (sampleBit b s).freeIdx = s.freeIdx := rfl

/-! ### resetRegisters -/

@[simp] theorem resetRegisters_frame (s : State) : (resetRegisters s).frame = 0#32 := rfl
@[simp] theorem resetRegisters_bitidx (s : State) : (resetRegisters s).bitidx = 31#5 := rfl
@[simp] theorem resetRegisters_phase (s : State) : (resetRegisters s).phase = .idle := rfl
@[simp] theorem resetRegisters_csN (s : State) : (resetRegisters s).csN = s.csN := rfl
@[simp] theorem resetRegisters_sck (s : State) : (resetRegisters s).sck = s.sck := rfl
@[simp] theorem resetRegisters_csOe (s : State) : (resetRegisters s).csOe = s.csOe := rfl
@[simp] theorem resetRegisters_sckOe (s : State) : (resetRegisters s).sckOe = s.sckOe := rfl
@[simp] theorem resetRegisters_soOe (s : State) : (resetRegisters s).soOe = s.soOe := rfl
@[simp] theorem resetRegisters_fault (s : State) : (resetRegisters s).fault = none := rfl
@[simp] theorem resetRegisters_tempQ (s : State) : (resetRegisters s).tempQ = none := rfl
@[simp] theorem resetRegisters_valid (s : State) : (resetRegisters s).valid = false := rfl
@[simp] theorem resetRegisters_done (s : State) : (resetRegisters s).done = false := rfl
@[simp] theorem resetRegisters_hist (s : State) : (resetRegisters s).hist = s.hist := rfl
@[simp] theorem resetRegisters_cfg (s : State) : (resetRegisters s).cfg = s.cfg := rfl
@[simp] theorem resetRegisters_inputs (s : State) : (resetRegisters s).inputs = s.inputs := rfl
@[simp] theorem resetRegisters_freeIdx (s : State) : (resetRegisters s).freeIdx = s.freeIdx := rfl

/-! ### completeRead -/

@[simp] theorem completeRead_frame (s : State) : (completeRead s).frame = s.frame := rfl
@[simp] theorem completeRead_bitidx (s : State) : (completeRead s).bitidx = s.bitidx := rfl
@[simp] theorem completeRead_phase (s : State) : (completeRead s).phase = .idle := rfl
@[simp] theorem completeRead_csN (s : State) : (completeRead s).csN = s.csN := rfl
@[simp] theorem completeRead_sck (s : State) : (completeRead s).sck = s.sck := rfl
@[simp] theorem completeRead_csOe (s : State) : (completeRead s).csOe = s.csOe := rfl
@[simp] theorem completeRead_sckOe (s : State) : (completeRead s).sckOe = s.sckOe := rfl
@[simp] theorem completeRead_soOe (s : State) : (completeRead s).soOe = s.soOe := rfl
@[simp] theorem completeRead_fault (s : State) : (completeRead s).fault = s.fault := rfl
@[simp] theorem completeRead_tempQ (s : State) : (completeRead s).tempQ = s.tempQ := rfl
@[simp] theorem completeRead_valid (s : State) : (completeRead s).valid = true := rfl
@[simp] theorem completeRead_done (s : State) : (completeRead s).done = true := rfl
@[simp] theorem completeRead_hist (s : State) : (completeRead s).hist = s.hist := rfl
@[simp] theorem completeRead_cfg (s : State) : (completeRead s).cfg = s.cfg := rfl
@[simp] theorem completeRead_inputs (s : State) : (completeRead s).inputs = s.inputs := rfl
@[simp] theorem completeRead_freeIdx (s : State) : (completeRead s).freeIdx = s.freeIdx := rfl

/-! ### reportFault -/

@[simp] theorem reportFault_frame (s : State) : (reportFault s).frame = s.frame := rfl
@[simp] theorem reportFault_bitidx (s : State) : (reportFault s).bitidx = s.bitidx := rfl
@[simp] theorem reportFault_phase (s : State) : (reportFault s).phase = .idle := rfl
@[simp] theorem reportFault_csN (s : State) : (reportFault s).csN = s.csN := rfl
@[simp] theorem reportFault_sck (s : State) : (reportFault s).sck = s.sck := rfl
@[simp] theorem reportFault_csOe (s : State) : (reportFault s).csOe = s.csOe := rfl
@[simp] theorem reportFault_sckOe (s : State) : (reportFault s).sckOe = s.sckOe := rfl
@[simp] theorem reportFault_soOe (s : State) : (reportFault s).soOe = s.soOe := rfl
@[simp] theorem reportFault_fault (s : State) : (reportFault s).fault = some true := rfl
@[simp] theorem reportFault_tempQ (s : State) : (reportFault s).tempQ = none := rfl
@[simp] theorem reportFault_valid (s : State) : (reportFault s).valid = true := rfl
@[simp] theorem reportFault_done (s : State) : (reportFault s).done = true := rfl
@[simp] theorem reportFault_hist (s : State) : (reportFault s).hist = s.hist := rfl
@[simp] theorem reportFault_cfg (s : State) : (reportFault s).cfg = s.cfg := rfl
@[simp] theorem reportFault_inputs (s : State) : (reportFault s).inputs = s.inputs := rfl
@[simp] theorem reportFault_freeIdx (s : State) : (reportFault s).freeIdx = s.freeIdx := rfl

/-! ### reportTemp -/

@[simp] theorem reportTemp_frame (q : Quarters) (s : State) : (reportTemp q s).frame = s.frame := rfl
@[simp] theorem reportTemp_bitidx (q : Quarters) (s : State) : (reportTemp q s).bitidx = s.bitidx := rfl
@[simp] theorem reportTemp_phase (q : Quarters) (s : State) : (reportTemp q s).phase = .idle := rfl
@[simp] theorem reportTemp_csN (q : Quarters) (s : State) : (reportTemp q s).csN = s.csN := rfl
@[simp] theorem reportTemp_sck (q : Quarters) (s : State) : (reportTemp q s).sck = s.sck := rfl
@[simp] theorem reportTemp_csOe (q : Quarters) (s : State) : (reportTemp q s).csOe = s.csOe := rfl
@[simp] theorem reportTemp_sckOe (q : Quarters) (s : State) : (reportTemp q s).sckOe = s.sckOe := rfl
@[simp] theorem reportTemp_soOe (q : Quarters) (s : State) : (reportTemp q s).soOe = s.soOe := rfl
@[simp] theorem reportTemp_fault (q : Quarters) (s : State) : (reportTemp q s).fault = some false := rfl
@[simp] theorem reportTemp_tempQ (q : Quarters) (s : State) : (reportTemp q s).tempQ = some q := rfl
@[simp] theorem reportTemp_valid (q : Quarters) (s : State) : (reportTemp q s).valid = true := rfl
@[simp] theorem reportTemp_done (q : Quarters) (s : State) : (reportTemp q s).done = true := rfl
@[simp] theorem reportTemp_hist (q : Quarters) (s : State) : (reportTemp q s).hist = s.hist := rfl
@[simp] theorem reportTemp_cfg (q : Quarters) (s : State) : (reportTemp q s).cfg = s.cfg := rfl
@[simp] theorem reportTemp_inputs (q : Quarters) (s : State) : (reportTemp q s).inputs = s.inputs := rfl
@[simp] theorem reportTemp_freeIdx (q : Quarters) (s : State) : (reportTemp q s).freeIdx = s.freeIdx := rfl

/-! ### tick -/

@[simp] theorem tick_frame (s : State) : (s.tick).frame = s.frame := rfl
@[simp] theorem tick_bitidx (s : State) : (s.tick).bitidx = s.bitidx := rfl
@[simp] theorem tick_phase (s : State) : (s.tick).phase = s.phase := rfl
@[simp] theorem tick_csN (s : State) : (s.tick).csN = s.csN := rfl
@[simp] theorem tick_sck (s : State) : (s.tick).sck = s.sck := rfl
@[simp] theorem tick_csOe (s : State) : (s.tick).csOe = s.csOe := rfl
@[simp] theorem tick_sckOe (s : State) : (s.tick).sckOe = s.sckOe := rfl
@[simp] theorem tick_soOe (s : State) : (s.tick).soOe = s.soOe := rfl
@[simp] theorem tick_fault (s : State) : (s.tick).fault = s.fault := rfl
@[simp] theorem tick_tempQ (s : State) : (s.tick).tempQ = s.tempQ := rfl
@[simp] theorem tick_valid (s : State) : (s.tick).valid = s.valid := rfl
@[simp] theorem tick_done (s : State) : (s.tick).done = s.done := rfl
@[simp] theorem tick_hist (s : State) : (s.tick).hist = s.hist := rfl
@[simp] theorem tick_cfg (s : State) : (s.tick).cfg = s.cfg := rfl
@[simp] theorem tick_inputs (s : State) : (s.tick).inputs = s.inputs.tail := rfl
@[simp] theorem tick_freeIdx (s : State) : (s.tick).freeIdx = s.freeIdx + 1 := rfl

/-! ### withPort -/

@[simp] theorem withPort_frame (s : State) (p : PortIn) : (s.withPort p).frame = s.frame := rfl
@[simp] theorem withPort_bitidx (s : State) (p : PortIn) : (s.withPort p).bitidx = s.bitidx := rfl
@[simp] theorem withPort_phase (s : State) (p : PortIn) : (s.withPort p).phase = s.phase := rfl
@[simp] theorem withPort_csN (s : State) (p : PortIn) : (s.withPort p).csN = s.csN := rfl
@[simp] theorem withPort_sck (s : State) (p : PortIn) : (s.withPort p).sck = s.sck := rfl
@[simp] theorem withPort_csOe (s : State) (p : PortIn) : (s.withPort p).csOe = s.csOe := rfl
@[simp] theorem withPort_sckOe (s : State) (p : PortIn) : (s.withPort p).sckOe = s.sckOe := rfl
@[simp] theorem withPort_soOe (s : State) (p : PortIn) : (s.withPort p).soOe = s.soOe := rfl
@[simp] theorem withPort_fault (s : State) (p : PortIn) : (s.withPort p).fault = s.fault := rfl
@[simp] theorem withPort_tempQ (s : State) (p : PortIn) : (s.withPort p).tempQ = s.tempQ := rfl
@[simp] theorem withPort_valid (s : State) (p : PortIn) : (s.withPort p).valid = s.valid := rfl
@[simp] theorem withPort_done (s : State) (p : PortIn) : (s.withPort p).done = s.done := rfl
@[simp] theorem withPort_hist (s : State) (p : PortIn) : (s.withPort p).hist = s.hist := rfl
@[simp] theorem withPort_cfg (s : State) (p : PortIn) : (s.withPort p).cfg = s.cfg := rfl
@[simp] theorem withPort_inputs (s : State) (p : PortIn) : (s.withPort p).inputs = p :: s.inputs.tail := rfl
@[simp] theorem withPort_freeIdx (s : State) (p : PortIn) : (s.withPort p).freeIdx = s.freeIdx := rfl

end Sys2Proof.Machine
end

