-- ==== Sys2Proof/Laws/Ops.lean ====
section
/-! SUPPORT. One lemma per shared operation and per meaning: everything it can do, cited in place of unfolding it. -/

namespace Sys2Proof.Machine

/-! ### Operations whose result depends on the state -/

theorem nextBit_at_zero {s : State} (h : s.bitidx = 0#5) : nextBit s = setPhase .seldeassert s := by
  simp [nextBit, h, setPhase]

theorem nextBit_above_zero {s : State} (h : s.bitidx ≠ 0#5) :
    nextBit s = { s with bitidx := s.bitidx - 1#5, phase := .bitlow } := by
  simp [nextBit, h]

/-- `nextBit` in one record: only the position and the phase change. -/
theorem nextBit_eq (s : State) :
    nextBit s =
      { s with
        bitidx := if s.bitidx = 0#5 then s.bitidx else s.bitidx - 1#5
        phase := if s.bitidx = 0#5 then .seldeassert else .bitlow } := by
  unfold nextBit
  split <;> rfl

/-- The decrement of the bit position does not wrap. -/
theorem bitidx_pred_toNat {i : BitIdx} (h : i ≠ 0#5) : (i - 1#5).toNat + 1 = i.toNat := by
  have : i.toNat ≠ 0 := fun h0 => h (BitVec.eq_of_toNat_eq (by simpa using h0))
  have := i.isLt
  rw [BitVec.toNat_sub]
  simp
  omega

/-- A bit placed at a position is there and nowhere else. -/
theorem getLsbD_bitAt (b : Bool) (i : BitIdx) (j : Nat) :
    (bitAt b i).getLsbD j = (decide (j = i.toNat) && b) := by
  have := i.isLt
  simp only [bitAt, BitVec.getLsbD_shiftLeft, BitVec.getLsbD_setWidth, BitVec.getLsbD_ofBool]
  by_cases hj : j = i.toNat
  · subst hj; simp; omega
  · rcases Nat.lt_or_ge j i.toNat with h | h
    · simp [h, hj]
    · have : j - i.toNat ≠ 0 := by omega
      simp [this, hj]

/-! ### The pure functions of the decode contract -/

theorem faultChk_eq_or (f : Word) : faultChk f = (f.getLsbD 0 || f.getLsbD 1 || f.getLsbD 2) := by
  have h7 : ∀ j, (0x00000007#32).getLsbD j = decide (j < 3) := by
    intro j
    rcases Nat.lt_or_ge j 32 with h | h
    · interval_cases j <;> rfl
    · rw [BitVec.getLsbD_of_ge _ _ h]; simp; omega
  rw [faultChk, Bool.eq_iff_iff, bne_iff_ne, ne_eq, BitVec.eq_of_getLsbD_eq_iff]
  constructor
  · intro h
    by_contra hn
    simp only [Bool.or_eq_true, not_or, Bool.not_eq_true] at hn
    refine h fun j hj => ?_
    rw [BitVec.getLsbD_and, h7]
    rcases Nat.lt_or_ge j 3 with h3 | h3
    · interval_cases j <;> simp only [hn, Bool.false_and, BitVec.getLsbD_zero]
    · simp [Nat.not_lt.mpr h3]
  · intro h hz
    have hb : ∀ j, j < 3 → f.getLsbD j = false := fun j hj => by
      have := hz j (by omega)
      rwa [BitVec.getLsbD_and, h7, decide_eq_true hj, Bool.and_true, BitVec.getLsbD_zero] at this
    simp only [hb 0 (by omega), hb 1 (by omega), hb 2 (by omega), Bool.or_self, Bool.false_eq_true] at h

/-- The field EXTRACT takes is the bits 31:18. -/
theorem extractField_eq (f : Word) : extractField f = f.extractLsb' 18 14 := by
  apply BitVec.eq_of_getLsbD_eq
  intro j hj
  have hm : (0x3FFF#32).getLsbD j = true := by interval_cases j <;> rfl
  simp only [extractField, BitVec.getLsbD_setWidth, BitVec.getLsbD_and, BitVec.getLsbD_ushiftRight,
    BitVec.getLsbD_extractLsb', hm, Bool.and_true]

/-- The explicit mask of SEXT is the two's-complement extension. -/
theorem sextTo_eq_signExtend (w : Nat) (x : Field) : sextTo w x = x.signExtend w := by
  have hm : ∀ j, j < w → (~~~((0x3FFF#14).setWidth w)).getLsbD j = decide (14 ≤ j) := by
    intro j hj
    rw [BitVec.getLsbD_not, BitVec.getLsbD_setWidth]
    rcases Nat.lt_or_ge j 14 with h | h
    · interval_cases j <;> simp [hj]
    · rw [BitVec.getLsbD_of_ge _ _ h]; simp [hj, h]
  have hmsb : x.msb = x.getLsbD 13 := by rw [BitVec.msb_eq_getLsbD_last]
  apply BitVec.eq_of_getLsbD_eq
  intro j hj
  rw [BitVec.getLsbD_signExtend, hmsb]
  rcases Nat.lt_or_ge j 14 with h | h
  · by_cases h13 : x.getLsbD 13 = true
    · simp only [sextTo, h13, if_true, BitVec.getLsbD_or, hm j hj, BitVec.getLsbD_setWidth]
      simp [hj, h, Nat.not_le.mpr h]
    · simp only [sextTo, h13]
      simp [hj, h]
  · have hx : x.getLsbD j = false := BitVec.getLsbD_of_ge _ _ h
    by_cases h13 : x.getLsbD 13 = true
    · simp only [sextTo, h13, if_true, BitVec.getLsbD_or, hm j hj, BitVec.getLsbD_setWidth, hx]
      simp [hj, h]
    · simp only [sextTo, h13]
      simp [hj, Nat.not_lt.mpr h, hx]

theorem toInt_sextTo {w : Nat} (hw : 14 ≤ w) (x : Field) : (sextTo w x).toInt = x.toInt := by
  rw [sextTo_eq_signExtend, BitVec.toInt_signExtend_of_le hw]

/-- The fields of a frame put together from its fields. -/
theorem frameTempField_frameOf (t : Field) (g : Ignored) (b : FaultBits) : frameTempField (frameOf t g b) = t := by
  apply BitVec.eq_of_getLsbD_eq
  intro j hj
  simp only [frameTempField, frameOf, BitVec.getLsbD_extractLsb', BitVec.getLsbD_append]
  have h1 : ¬ 18 + j < 3 := by omega
  have h2 : ¬ 18 + j - 3 < 15 := by omega
  simp only [h1, h2, if_false, hj, decide_true, Bool.true_and]
  congr 1
  omega

theorem frameIgnField_frameOf (t : Field) (g : Ignored) (b : FaultBits) : frameIgnField (frameOf t g b) = g := by
  apply BitVec.eq_of_getLsbD_eq
  intro j hj
  simp only [frameIgnField, frameOf, BitVec.getLsbD_extractLsb', BitVec.getLsbD_append]
  have h1 : ¬ 3 + j < 3 := by omega
  have h2 : 3 + j - 3 < 15 := by omega
  simp only [h1, h2, if_false, if_true, hj, decide_true, Bool.true_and]
  congr 1
  omega

theorem frameFaultField_frameOf (t : Field) (g : Ignored) (b : FaultBits) : frameFaultField (frameOf t g b) = b := by
  apply BitVec.eq_of_getLsbD_eq
  intro j hj
  simp only [frameFaultField, frameOf, BitVec.getLsbD_extractLsb', BitVec.getLsbD_append]
  simp [hj]

/-- A frame is its three fields. -/
theorem frameOf_fields (f : Word) : frameOf (frameTempField f) (frameIgnField f) (frameFaultField f) = f := by
  apply BitVec.eq_of_getLsbD_eq
  intro j hj
  simp only [frameOf, frameTempField, frameIgnField, frameFaultField, BitVec.getLsbD_append,
    BitVec.getLsbD_extractLsb']
  split
  · simp_all
  · split
    · rename_i h1 h2
      have : 3 + (j - 3) = j := by omega
      simp [h2, this]
    · have : 18 + (j - 3 - 15) = j := by omega
      have h3 : j - 3 - 15 < 14 := by omega
      simp [h3, this]

/-! ### The step -/

@[simp] theorem afterStep_next (s : State) : afterStep (.next s) = .next s.tick := rfl

@[simp] theorem afterStep_refused (r : Refusal) : afterStep (.refused r) = .refused r := rfl

/-- A step that answers a next state ticks the next state of an operation. -/
theorem step_eq_next {s t : State} (h : step s = .next t) : ∃ u, exec s.fetch s = .next u ∧ t = u.tick := by
  unfold step at h
  cases he : exec s.fetch s with
  | next u => rw [he, afterStep_next] at h; exact ⟨u, rfl, (Host.Outcome.next.inj h).symm⟩
  | fault r => cases r
  | refused r => rw [he, afterStep_refused] at h; cases h

/-- With `rst = 1` the operation is INIT. -/
theorem fetch_of_rst {s : State} (h : s.port.rst = true) : s.fetch = .init s.port.start := by
  have hc : ∀ st : Bool, decodeCmd (BitVec.ofBool true ++ BitVec.ofBool st) = .init st := by decide
  rw [State.fetch, if_pos h, decode, PortIn.command, h]
  exact hc _

/-- With `rst = 0` the operation is the micro-operation of the phase. -/
theorem fetch_of_phase {s : State} (h : s.port.rst = false) : s.fetch = decode (.seq s.phase.code) := by
  simp [State.fetch, h]

/-- What a step can do, once for all proofs over it: INIT with `rst = 1`, else the micro-operation of the phase. -/
theorem step_cases (s : State) :
    (s.port.rst = true ∧ step s = afterStep (execInit s.port.start s)) ∨
    (s.port.rst = false ∧
      ((s.phase = .idle ∧ step s = afterStep (execIdle s)) ∨
       (s.phase = .clkidle ∧ step s = afterStep (execClkidle s)) ∨
       (s.phase = .selassert ∧ step s = afterStep (execSelassert s)) ∨
       (s.phase = .bitlow ∧ step s = afterStep (execBitlow s)) ∨
       (s.phase = .bitsample ∧ step s = afterStep (execBitsample s)) ∨
       (s.phase = .bithigh ∧ step s = afterStep (execBithigh s)) ∨
       (s.phase = .seldeassert ∧ step s = afterStep (execSeldeassert s)) ∨
       (s.phase = .decode ∧ step s = afterStep (execDecode s)))) := by
  cases hr : s.port.rst with
  | true => exact .inl ⟨rfl, by rw [step, fetch_of_rst hr]; rfl⟩
  | false =>
    refine .inr ⟨rfl, ?_⟩
    cases hp : s.phase <;>
      simp only [reduceCtorEq, false_and, true_and, false_or, or_false] <;>
      (rw [step, fetch_of_phase hr, hp]; rfl)

/-- `construct` in one record. -/
theorem construct_eq (s : State) :
    construct s =
      { s with
        csOe := true, csN := true, sckOe := true, sck := s.cfg.sckResetLevel, soOe := false
        phase := .idle, bitidx := 31#5, frame := 0#32, valid := false, done := false, fault := none, tempQ := none
        hist := s.hist ++ constructionEvents s.cfg.sckResetLevel } := by
  simp [construct, resetRegisters, pinDir, pinWrite, emit, constructionEvents]

end Sys2Proof.Machine
end

