-- ==== Sys2Proof/Laws/Decode.lean ====
section
/-! SUPPORT. What the mask and match patterns of the frame classes say of the bits of a frame, and the decoder on a frame given by its fields. -/

namespace Sys2Proof

open Sys2Proof.Machine

/-- `FAULT_xx1`: bit 0 is set. -/
theorem frame_fits_xx1_iff (f : Word) : f &&& 0x00000001#32 = 0x00000001#32 ↔ f.getLsbD 0 = true := by
  rw [BitVec.eq_of_getLsbD_eq_iff]
  constructor
  · intro h
    simpa using h 0 (by omega)
  · intro h j hj
    have hm : (0x00000001#32).getLsbD j = decide (j = 0) := by interval_cases j <;> rfl
    rw [BitVec.getLsbD_and, hm]
    by_cases h0 : j = 0
    · subst h0
      rw [h]
      rfl
    · simp [h0]

/-- `FAULT_x10`: bit 0 is clear and bit 1 set. -/
theorem frame_fits_x10_iff (f : Word) :
    f &&& 0x00000003#32 = 0x00000002#32 ↔ f.getLsbD 0 = false ∧ f.getLsbD 1 = true := by
  rw [BitVec.eq_of_getLsbD_eq_iff]
  constructor
  · intro h
    exact ⟨by simpa using h 0 (by omega), by simpa using h 1 (by omega)⟩
  · rintro ⟨h0, h1⟩ j hj
    have hm : (0x00000003#32).getLsbD j = decide (j < 2) := by interval_cases j <;> rfl
    have hv : (0x00000002#32).getLsbD j = decide (j = 1) := by interval_cases j <;> rfl
    rw [BitVec.getLsbD_and, hm, hv]
    rcases Nat.lt_or_ge j 2 with h | h
    · interval_cases j
      · rw [h0]
        rfl
      · rw [h1]
        rfl
    · have : j ≠ 1 := by omega
      simp [Nat.not_lt.mpr h, this]

/-- `FAULT_100`: bits 0 and 1 are clear and bit 2 set. -/
theorem frame_fits_100_iff (f : Word) :
    f &&& 0x00000007#32 = 0x00000004#32 ↔
      f.getLsbD 0 = false ∧ f.getLsbD 1 = false ∧ f.getLsbD 2 = true := by
  rw [BitVec.eq_of_getLsbD_eq_iff]
  constructor
  · intro h
    exact ⟨by simpa using h 0 (by omega), by simpa using h 1 (by omega), by simpa using h 2 (by omega)⟩
  · rintro ⟨h0, h1, h2⟩ j hj
    have hm : (0x00000007#32).getLsbD j = decide (j < 3) := by interval_cases j <;> rfl
    have hv : (0x00000004#32).getLsbD j = decide (j = 2) := by interval_cases j <;> rfl
    rw [BitVec.getLsbD_and, hm, hv]
    rcases Nat.lt_or_ge j 3 with h | h
    · interval_cases j
      · rw [h0]
        rfl
      · rw [h1]
        rfl
      · rw [h2]
        rfl
    · have : j ≠ 2 := by omega
      simp [Nat.not_lt.mpr h, this]

/-- The bottom three bits of a frame are its fault field. -/
theorem getLsbD_frameFaultField (f : Word) {j : Nat} (hj : j < 3) : f.getLsbD j = (frameFaultField f).getLsbD j := by
  simp only [frameFaultField, BitVec.getLsbD_extractLsb', hj, decide_true, Bool.true_and, Nat.zero_add]

/-- The decoder on a frame given by its fields. -/
theorem decodeFrame_frameOf (t : Field) (g : Ignored) (b : FaultBits) :
    decodeFrame (frameOf t g b) =
      if b.getLsbD 0 then .frameFaultXx1 t g b
      else if b.getLsbD 1 then .frameFaultX10 t g b
      else if b.getLsbD 2 then .frameFault100 t g
      else .frameTemp t g := by
  simp only [decodeFrame, frame_fits_xx1_iff, frame_fits_x10_iff, frame_fits_100_iff,
    getLsbD_frameFaultField (frameOf t g b) (show 0 < 3 by omega),
    getLsbD_frameFaultField (frameOf t g b) (show 1 < 3 by omega),
    getLsbD_frameFaultField (frameOf t g b) (show 2 < 3 by omega),
    frameTempField_frameOf, frameIgnField_frameOf, frameFaultField_frameOf]
  cases b.getLsbD 0 <;> cases b.getLsbD 1 <;> cases b.getLsbD 2 <;> simp

/-- A property of every frame follows from the frames given by their fields. -/
theorem forall_frame {P : Word → Prop} (h : ∀ t g b, P (frameOf t g b)) (f : Word) : P f := by
  rw [← frameOf_fields f]
  exact h _ _ _

theorem faultChk_frameOf (t : Field) (g : Ignored) (b : FaultBits) : faultChk (frameOf t g b) = (b != 0#3) := by
  have hb : ∀ b : FaultBits, (b.getLsbD 0 || b.getLsbD 1 || b.getLsbD 2) = (b != 0#3) := by decide
  rw [faultChk_eq_or, getLsbD_frameFaultField _ (show 0 < 3 by omega),
    getLsbD_frameFaultField _ (show 1 < 3 by omega), getLsbD_frameFaultField _ (show 2 < 3 by omega),
    frameFaultField_frameOf, hb]

theorem extractField_frameOf (t : Field) (g : Ignored) (b : FaultBits) : extractField (frameOf t g b) = t := by
  rw [extractField_eq]
  exact frameTempField_frameOf t g b

end Sys2Proof
end

