-- ==== Sys2Proof/Laws/Inv.lean ====
section
/-! SUPPORT. The invariant taken apart, the history read in two pieces, and the facts on frames and fields that keeping the invariant needs. -/

namespace Sys2Proof.Machine

theorem inv_iff (s : State) :
    s.Inv = true ↔
      s.selectFollowsPhase = true ∧ s.sequencerFollowsPhase = true ∧ s.unsampledBitsClear = true ∧
        s.doneImpliesRest = true ∧ s.directionsFixed = true ∧ s.resultConsistent = true ∧
        s.historyShowsLines = true ∧ s.configured = true := by
  simp [State.Inv, and_assoc]

/-- The environment's move between steps does not touch the invariant. -/
@[simp] theorem inv_tick (s : State) : s.tick.Inv = s.Inv := rfl

theorem levelAfter_append (l : OutLine) (v : Bool) (a b : List Event) :
    levelAfter l v (a ++ b) = levelAfter l (levelAfter l v a) b := by
  induction a generalizing v with
  | nil => rfl
  | cons e a ih => cases e <;> simp [levelAfter, ih]

/-- A bit below the cleared part of a frame is 0. -/
theorem getLsbD_of_low_bits_clear {f : Word} {n j : Nat} (h : f.toNat % 2 ^ n = 0) (hj : j < n) :
    f.getLsbD j = false := by
  have ht := Nat.testBit_mod_two_pow f.toNat n j
  rw [h] at ht
  simpa [hj, BitVec.getLsbD] using ht.symm

/-- Sampling position `i` leaves the positions below it clear. -/
theorem low_bits_clear_or_bitAt {f : Word} {i : BitIdx} (b : Bool) (h : f.toNat % 2 ^ (i.toNat + 1) = 0) :
    (f ||| bitAt b i).toNat % 2 ^ i.toNat = 0 := by
  apply Nat.eq_of_testBit_eq
  intro j
  rw [Nat.testBit_mod_two_pow, Nat.zero_testBit]
  by_cases hj : j < i.toNat
  · have h1 : f.getLsbD j = false := getLsbD_of_low_bits_clear h (by omega)
    have h2 : (f ||| bitAt b i).toNat.testBit j = (f ||| bitAt b i).getLsbD j := rfl
    have h3 : j ≠ i.toNat := by omega
    rw [h2, BitVec.getLsbD_or, h1, getLsbD_bitAt]
    simp [h3]
  · simp [hj]

/-- The range of a sign-extended field (10_state.md R29). -/
theorem sext_range (x : Field) : -8192 ≤ (sext x).toInt ∧ (sext x).toInt ≤ 8191 := by
  rw [sext, toInt_sextTo (by decide)]
  have a := BitVec.toInt_lt (x := x)
  have b := BitVec.le_toInt (x := x)
  simp only [Nat.reduceSub, Int.reducePow] at a b
  omega

end Sys2Proof.Machine
end

