-- ==== Sys2Proof/Laws/PerInstr.lean ====
section
/-! SUPPORT. Statements for all instructions, one lemma per constructor. -/

namespace Sys2Proof.Laws.EncodingFitsItsRow

open Sys2Proof.Machine

/-- The pattern a well-formed instruction encodes to fits the row of the opcode table that bears its mnemonic, and no row
of another mnemonic (30_encoding.md R83). -/
def Statement (i : Instr) : Prop :=
  i.WellFormed = true → ∀ r ∈ opcodeTable, r.fits (encode i) = (r.mnemonic == i.mnemonic)

/-- The fault bits of a frame decide which frame rows fit it. -/
theorem fits_frameOf (t : Field) (g : Ignored) (b : FaultBits) (m v : Nat) (n : String) (hm : m < 8) :
    (Row.mk n .frame m v).fits (.frame (frameOf t g b)) = (b.toNat &&& m == v) := by
  have hb : (frameOf t g b).toNat % 2 ^ 3 = b.toNat := by
    have h := congrArg BitVec.toNat (frameFaultField_frameOf t g b)
    simpa [frameFaultField, BitVec.extractLsb'_toNat] using h
  have hand : (frameOf t g b).toNat &&& m = b.toNat &&& m := by
    rw [← hb]
    apply Nat.eq_of_testBit_eq
    intro j
    simp only [Nat.testBit_and, Nat.testBit_mod_two_pow]
    rcases Nat.lt_or_ge j 3 with h | h
    · simp [h]
    · have : m.testBit j = false := Nat.testBit_lt_two_pow (by
        calc m < 2 ^ 3 := by omega
          _ ≤ 2 ^ j := Nat.pow_le_pow_right (by omega) h)
      simp [this]
  simp only [Row.fits, Pattern.format, Pattern.bits, hand]
  rfl

/-- The rows of the other formats fit no frame, and the frame rows go by the fault bits. -/
theorem rows_of_frame (t : Field) (g : Ignored) (b : FaultBits) (n : String)
    (h : [b.toNat &&& 7 == 0, b.toNat &&& 1 == 1, b.toNat &&& 3 == 2, b.toNat &&& 7 == 4] =
      ["FRAME.TEMP" == n, "FRAME.FAULT_xx1" == n, "FRAME.FAULT_x10" == n, "FRAME.FAULT_100" == n])
    (h' : ∀ m ∈ ["INIT", "READ", "NOP", "IDLE", "CLKIDLE", "SELASSERT", "BITLOW", "BITSAMPLE", "BITHIGH", "SELDEASSERT",
      "DECODE"], (m == n) = false) :
    ∀ r ∈ opcodeTable, r.fits (.frame (frameOf t g b)) = (r.mnemonic == n) := by
  simp only [List.cons.injEq, and_true] at h
  obtain ⟨h0, h1, h2, h3⟩ := h
  intro r hr
  simp only [opcodeTable, List.cons_append, List.nil_append, List.mem_cons, List.not_mem_nil, or_false] at hr
  rcases hr with rfl | rfl | rfl | rfl | rfl | rfl | rfl | rfl | rfl | rfl | rfl | rfl | rfl | rfl | rfl
  iterate 11 exact (h' _ (by simp)).symm
  · rw [fits_frameOf t g b _ _ _ (by omega), h0]
  · rw [fits_frameOf t g b _ _ _ (by omega), h1]
  · rw [fits_frameOf t g b _ _ _ (by omega), h2]
  · rw [fits_frameOf t g b _ _ _ (by omega), h3]

theorem init (start : Bool) : Statement (.init start) := by
  cases start <;> (intro _; decide)

theorem read : Statement .read := by intro _; decide

theorem nop : Statement .nop := by intro _; decide

theorem idle : Statement .idle := by intro _; decide

theorem clkidle : Statement .clkidle := by intro _; decide

theorem selassert : Statement .selassert := by intro _; decide

theorem bitlow : Statement .bitlow := by intro _; decide

theorem bitsample : Statement .bitsample := by intro _; decide

theorem bithigh : Statement .bithigh := by intro _; decide

theorem seldeassert : Statement .seldeassert := by intro _; decide

theorem decode : Statement .decode := by intro _; decide

theorem frameTemp (temp : Field) (ign : Ignored) : Statement (.frameTemp temp ign) := fun _ =>
  rows_of_frame temp ign 0b000#3 "FRAME.TEMP" (by decide) (by decide)

theorem frameFaultXx1 (temp : Field) (ign : Ignored) (faultBits : FaultBits) :
    Statement (.frameFaultXx1 temp ign faultBits) := by
  intro h
  simp only [Instr.WellFormed] at h
  exact rows_of_frame temp ign faultBits "FRAME.FAULT_xx1" (by revert faultBits; decide) (by decide)

theorem frameFaultX10 (temp : Field) (ign : Ignored) (faultBits : FaultBits) :
    Statement (.frameFaultX10 temp ign faultBits) := by
  intro h
  simp only [Instr.WellFormed] at h
  exact rows_of_frame temp ign faultBits "FRAME.FAULT_x10" (by revert faultBits; decide) (by decide)

theorem frameFault100 (temp : Field) (ign : Ignored) : Statement (.frameFault100 temp ign) := fun _ =>
  rows_of_frame temp ign 0b100#3 "FRAME.FAULT_100" (by decide) (by decide)

end Sys2Proof.Laws.EncodingFitsItsRow
end

