-- ==== Sys2Proof/Laws/Run.lean ====
section
/-! SUPPORT. Running several steps: `core.run` unfolded one step at a time, and cut in two; and the host's calls, which give a command in every step. -/

namespace Sys2Proof.Machine

@[simp] theorem run_zero (s : State) : core.run 0 s = .next s := rfl

theorem run_succ_of_step {s t : State} (k : Nat) (h : step s = .next t) : core.run (k + 1) s = core.run k t := by
  simp only [Host.Core.run]
  rw [show core.step s = .next t from h]

/-- A run that answers a next state goes on from it. -/
theorem run_add {s t : State} : ∀ (m : Nat) (n : Nat), core.run m s = .next t → core.run (m + n) s = core.run n t
  | 0, n, h => by
    cases h
    rw [Nat.zero_add]
  | m + 1, n, h => by
    rw [Nat.add_right_comm]
    simp only [Host.Core.run] at h ⊢
    cases hs : core.step s with
    | next u =>
      rw [hs] at h
      exact run_add m n h
    | fault r => cases r
    | refused r =>
      rw [hs] at h
      cases h

/-- The input levels later are those of the script, shifted by the steps taken. -/
theorem portAt_tick (s : State) (n : Nat) : s.tick.portAt n = s.portAt (n + 1) := by
  simp only [State.portAt, tick_inputs]
  cases s.inputs <;> simp

theorem portAt_zero (s : State) : s.portAt 0 = s.port := by
  simp only [State.portAt, State.port]
  cases s.inputs <;> rfl

theorem soBitAt_tick (s : State) (n : Nat) : s.tick.soBitAt n = s.soBitAt (n + 1) := by
  simp only [State.soBitAt, portAt_tick, tick_freeIdx]
  rw [show s.freeIdx + 1 + n = s.freeIdx + (n + 1) by omega]

theorem soBitAt_zero (s : State) : s.soBitAt 0 = s.soBit := by
  cases h : s.port.so <;> simp [State.soBit, State.soBitAt, portAt_zero, h]

theorem portAt_of_drop {s t : State} {k : Nat} (h : t.inputs = s.inputs.drop k) (n : Nat) :
    t.portAt n = s.portAt (k + n) := by
  simp [State.portAt, h, List.getD_eq_getElem?_getD, List.getElem?_drop]

theorem soBitAt_of_drop {s t : State} {k : Nat} (h : t.inputs = s.inputs.drop k) (h' : t.freeIdx = s.freeIdx + k)
    (n : Nat) : t.soBitAt n = s.soBitAt (k + n) := by
  simp [State.soBitAt, portAt_of_drop h, h', Nat.add_assoc]

/-! ### The host's calls -/

@[simp] theorem commanding_port (s : State) (b : Bool) : (s.commanding b).port = ⟨false, b, s.port.so⟩ := rfl

@[simp] theorem commanding_phase (s : State) (b : Bool) : (s.commanding b).phase = s.phase := rfl

@[simp] theorem commanding_soBit (s : State) (b : Bool) : (s.commanding b).soBit = s.soBit := rfl

@[simp] theorem commanding_inputs_tail (s : State) (b : Bool) : (s.commanding b).inputs.tail = s.inputs.tail := rfl

/-- While the host commands, the operation of a step is the micro-operation of the phase. -/
theorem step_commanding (s : State) (b : Bool) :
    step (s.commanding b) = afterStep (exec (decode (.seq s.phase.code)) (s.commanding b)) := by
  rw [step, fetch_of_phase (s := s.commanding b) rfl, commanding_phase]

/-- The first step of a call, given at rest: the acceptance of the READ. -/
theorem step_commanding_read {s : State} (h : s.phase = .idle) :
    step (s.commanding true) =
      .next { s with phase := .clkidle, done := false, inputs := s.inputs.tail, freeIdx := s.freeIdx + 1 } := by
  rw [step_commanding, h]
  rfl

/-- One NOP of a call that is not done by it. -/
theorem nopUntilDone_of_not_done {s t : State} (k : Nat) (h : step (s.commanding false) = .next t) (hd : t.done = false) :
    nopUntilDone (k + 1) s = nopUntilDone k t := by
  simp [nopUntilDone, h, hd]

/-- The NOP that ends a call. -/
theorem nopUntilDone_of_done {s t : State} (k : Nat) (h : step (s.commanding false) = .next t) (hd : t.done = true) :
    nopUntilDone (k + 1) s = some t := by
  simp [nopUntilDone, h, hd]

/-- A call given at rest: the acceptance, then the NOPs. -/
theorem callRead_of_idle {s : State} (h : s.phase = .idle) :
    callRead s =
      nopUntilDone 100
        { s with phase := .clkidle, done := false, inputs := s.inputs.tail, freeIdx := s.freeIdx + 1 } := by
  have hb : s.busy = false := by simp [State.busy, h]
  simp only [callRead, hb, step_commanding_read h, Bool.false_eq_true, if_false]

/-- There is no call while the block is busy. -/
theorem callRead_of_busy {s : State} (h : s.phase ≠ .idle) : callRead s = none := by
  simp [callRead, State.busy, h]

end Sys2Proof.Machine
end

