-- ==== Sys2Proof/Tests/Slice0.lean ====
section
/-! SUPPORT. Tests of the model: the spec's own words and vectors (95_test_vectors.md, 96_test_vectors_sequencer.md), the checks of WellFormed on ill-formed terms, and a witness for the hypotheses of every statement. -/

namespace Sys2Proof.Tests

open Sys2Proof Sys2Proof.Machine

/-! ### WellFormed refuses an ill-formed term for each of its checks -/

theorem test_wf_refuses_xx1_with_bit0_clear : (Instr.frameFaultXx1 0x0190#14 0#15 0b110#3).WellFormed = false := by decide
theorem test_wf_refuses_x10_with_bit0_set : (Instr.frameFaultX10 0x0190#14 0#15 0b011#3).WellFormed = false := by decide
theorem test_wf_refuses_x10_with_bit1_clear : (Instr.frameFaultX10 0x0190#14 0#15 0b100#3).WellFormed = false := by decide
theorem test_wf_refuses_sel_equal_clk : ({ Config.default with pinClk := 0 } : Config).WellFormed = false := by decide
theorem test_wf_refuses_sel_equal_din : ({ Config.default with pinDin := 0 } : Config).WellFormed = false := by decide
theorem test_wf_refuses_clk_equal_din : ({ Config.default with pinDin := 1 } : Config).WellFormed = false := by decide
theorem test_wf_refuses_infinity_as_nan : ({ Config.default with nanPattern := 0x7F800000#32 } : Config).WellFormed = false := by decide
theorem test_wf_refuses_number_as_nan : ({ Config.default with nanPattern := 0x42C80000#32 } : Config).WellFormed = false := by decide
theorem test_wf_refuses_short_low_wait : ({ Config.default with nLow := 0 } : Config).WellFormed = false := by decide
theorem test_wf_refuses_short_high_wait : ({ Config.default with nHigh := 0 } : Config).WellFormed = false := by decide
theorem test_wf_refuses_short_settle_wait : ({ Config.default with nSettle := 0 } : Config).WellFormed = false := by decide

/-! ### Decoding: every row's word, written out from the encodings of 30_encoding.md R75, R77, R78 -/

theorem test_decode_init : decode (.cmd 0b10#2) = .init false := by decide
theorem test_decode_init_with_start : decode (.cmd 0b11#2) = .init true := by decide
theorem test_decode_read : decode (.cmd 0b01#2) = .read := by decide
theorem test_decode_nop : decode (.cmd 0b00#2) = .nop := by decide
theorem test_decode_idle : decode (.seq 0b000#3) = .idle := by decide
theorem test_decode_clkidle : decode (.seq 0b001#3) = .clkidle := by decide
theorem test_decode_selassert : decode (.seq 0b010#3) = .selassert := by decide
theorem test_decode_bitlow : decode (.seq 0b011#3) = .bitlow := by decide
theorem test_decode_bitsample : decode (.seq 0b100#3) = .bitsample := by decide
theorem test_decode_bithigh : decode (.seq 0b101#3) = .bithigh := by decide
theorem test_decode_seldeassert : decode (.seq 0b110#3) = .seldeassert := by decide
theorem test_decode_decode : decode (.seq 0b111#3) = .decode := by decide
theorem test_decode_frame_temp :
    decode (.frame 0b11110000011000_000001100100000_000#32) = .frameTemp 0b11110000011000#14 0b000001100100000#15 := by decide
theorem test_decode_frame_fault_xx1 :
    decode (.frame 0b00000110010000_010000000000000_101#32) =
      .frameFaultXx1 0b00000110010000#14 0b010000000000000#15 0b101#3 := by decide
theorem test_decode_frame_fault_x10 :
    decode (.frame 0b11111111111111_111111111111111_010#32) =
      .frameFaultX10 0b11111111111111#14 0b111111111111111#15 0b010#3 := by decide
theorem test_decode_frame_fault_100 :
    decode (.frame 0b01111111111111_000000000000000_100#32) = .frameFault100 0b01111111111111#14 0#15 := by decide
theorem test_decode_bits_rejects_three_bits_as_command : decodeBits .cmd 4 = .error .tooWide := rfl
theorem test_decode_bits_takes_widest_frame :
    (decodeBits .frame 0xFFFFFFF8).toOption = some (.frameTemp 0x3FFF#14 0x7FFF#15) := by decide

/-! ### The decoder's functions (95_test_vectors.md sections 2.2 to 2.6) -/

theorem test_faultchk_ignores_bit16 : faultChk 0x00010000#32 = false := by decide
theorem test_extract_mixed : extractField 0xF0601900#32 = 0x3C18#14 := by decide
theorem test_sext_most_negative : (sext 0x2000#14).toInt = -8192 := by decide
theorem test_decode_minus_quarter : decodeReading 0xFFFFC000#32 = .valid (-1) := by decide
theorem test_decode_largest : decodeReading 0x7FFFFFF8#32 = .valid 8191 := by decide
theorem test_decode_fault_wins_over_temperature : decodeReading 0x06400001#32 = .fault := by decide
theorem test_f32_of_450_degrees : f32OfQuarters 1800 = 0x43E10000#32 := by decide
theorem test_f32_of_smallest : f32OfQuarters (-8192) = 0xC5000000#32 := by decide

/-! ### One step of each operation (96_test_vectors_sequencer.md sections 1 and 2) -/

/-- A state for one step: the given sequencer position, lines and result, an empty history. -/
def at_ (p : Phase) (cs sck : Bool) (i : BitIdx) (f : Word) (valid done : Bool) (q : Option Quarters) : State :=
  { State.reset with
    phase := p, csN := cs, sck := sck, bitidx := i, frame := f, valid := valid, done := done
    fault := q.map (fun _ => false), tempQ := q, hist := [] }

/-- The state with one step's input levels. -/
def with_ (s : State) (rst start : Bool) (so : Option Bool) : State := { s with inputs := [⟨rst, start, so⟩] }

/-- K3: INIT during a transfer. -/
theorem test_k3_init_aborts_transfer :
    (nextOf (step (with_ (at_ .bitsample false false 12#5 0xF0600000#32 true false (some 0x0190#16)) true false none))).map
      (fun t => ((t.phase, t.csN, t.bitidx), (t.frame, t.valid, t.tempQ), t.hist)) =
      some ((.idle, true, 31#5), (0#32, false, none),
        [.dir .cs .out, .drive .cs true, .dir .sck .out, .drive .sck false, .dir .so .inp]) := by decide

/-- K2: `rst` wins over `start`. -/
theorem test_k2_init_wins_over_start :
    (nextOf (step (with_ (at_ .idle true true 0#5 0x06400000#32 true false (some 0x0190#16)) true true none))).map
      (fun t => (t.phase, t.valid, t.done)) = some (.idle, false, false) := by decide

/-- K7: READ in the step after DECODE. -/
theorem test_k7_read :
    (nextOf (step (with_ (at_ .idle true true 0#5 0x06400000#32 true true (some 0x0190#16)) false true none))).map
      (fun t => ((t.phase, t.sck, t.frame), (t.valid, t.done, t.tempQ), t.hist)) =
      some ((.clkidle, true, 0x06400000#32), (true, false, some 0x0190#16), []) := by decide

/-- K8: NOP. -/
theorem test_k8_nop :
    (nextOf (step (with_ (at_ .idle true true 0#5 0x06400000#32 true true (some 0x0190#16)) false false none))).map
      (fun t => ((t.phase, t.sck, t.frame), (t.valid, t.done, t.tempQ), t.hist)) =
      some ((.idle, true, 0x06400000#32), (true, false, some 0x0190#16), []) := by decide

/-- M2: IDLE as its own micro-operation. -/
theorem test_m2_idle :
    (nextOf (exec .idle (with_ (at_ .idle true true 0#5 0#32 true true none) false true none))).map
      (fun t => (t.phase, t.done)) = some (.clkidle, false) := by decide

/-- M4: CLKIDLE after a previous READ. -/
theorem test_m4_clkidle :
    (nextOf (step (at_ .clkidle true true 0#5 0x06400000#32 true false (some 0x0190#16)))).map
      (fun t => ((t.phase, t.csN, t.sck), (t.frame, t.bitidx, t.tempQ), t.hist)) =
      some ((.selassert, true, false), (0#32, 31#5, some 0x0190#16), [.drive .sck false]) := by decide

/-- M6: SELASSERT. -/
theorem test_m6_selassert :
    (nextOf (step (at_ .selassert true false 31#5 0#32 false false none))).map (fun t => (t.phase, t.csN, t.sck, t.hist)) =
      some (.bitlow, false, false, [.drive .cs false, .wait .settle]) := by decide

/-- K10: BITLOW, `start` ignored. -/
theorem test_k10_bitlow :
    (nextOf (step (with_ (at_ .bitlow false true 20#5 0xF0600000#32 true false none) false true none))).map
      (fun t => (t.phase, t.sck, t.bitidx, t.frame, t.hist)) =
      some (.bitsample, false, 20#5, 0xF0600000#32, [.drive .sck false, .wait .low]) := by decide

/-- M9: BITSAMPLE of a 1. -/
theorem test_m9_bitsample :
    (nextOf (step (with_ (at_ .bitsample false false 25#5 0x04000000#32 false false none) false false (some true)))).map
      (fun t => (t.phase, t.frame, t.bitidx, t.hist)) = some (.bithigh, 0x06000000#32, 25#5, [.sample 25#5 true]) := by decide

/-- M11: the first sample is bit 31. -/
theorem test_m11_bitsample_msb_first :
    (nextOf (step (with_ (at_ .bitsample false false 31#5 0#32 false false none) false false (some true)))).map
      (fun t => t.frame) = some 0x80000000#32 := by decide

/-- M13: BITHIGH, the loop goes on. -/
theorem test_m13_bithigh :
    (nextOf (step (at_ .bithigh false false 25#5 0x06000000#32 false false none))).map
      (fun t => (t.phase, t.sck, t.bitidx, t.hist)) = some (.bitlow, true, 24#5, [.drive .sck true, .wait .high]) := by decide

/-- M15: BITHIGH at position 0, no wrap. -/
theorem test_m15_bithigh_exit :
    (nextOf (step (at_ .bithigh false false 0#5 0#32 false false none))).map (fun t => (t.phase, t.sck, t.bitidx, t.csN)) =
      some (.seldeassert, true, 0#5, false) := by decide

/-- M16: SELDEASSERT. -/
theorem test_m16_seldeassert :
    (nextOf (step (at_ .seldeassert false true 0#5 0x06400000#32 false false none))).map
      (fun t => (t.phase, t.csN, t.sck, t.frame, t.hist)) =
      some (.decode, true, true, 0x06400000#32, [.drive .cs true]) := by decide

/-- M18: DECODE of a fault frame over a good reading. -/
theorem test_m18_decode_fault :
    (nextOf (step (at_ .decode true true 0#5 0x06410001#32 true false (some 0x0190#16)))).map
      (fun t => ((t.phase, t.fault, t.tempQ), (t.valid, t.done, t.reading))) =
      some ((.idle, some true, none), (true, true, some .fault)) := by decide

/-- M19: DECODE of a good frame over a fault. -/
theorem test_m19_decode_recovers :
    (nextOf (step { at_ .decode true true 0#5 0xF0601900#32 true false none with fault := some true })).map
      (fun t => ((t.phase, t.fault, t.tempQ), (t.valid, t.done, t.reading))) =
      some ((.idle, some false, some 0xFC18#16), (true, true, some (.valid (-1000)))) := by decide

/-- 95_test_vectors.md 2.6, 0x06400000. -/
theorem test_frame_temp :
    (nextOf (exec (.frameTemp 0x0190#14 0#15) State.reset)).map (fun t => (t.fault, t.tempQ, t.resultF32)) =
      some (some false, some 0x0190#16, 0x42C80000#32) := by decide

/-- 95_test_vectors.md 2.6, 0x06411901. -/
theorem test_frame_fault_xx1 :
    (nextOf (exec (.frameFaultXx1 0x0190#14 0x2320#15 0b001#3) State.reset)).map (fun t => (t.fault, t.tempQ, t.resultF32)) =
      some (some true, none, 0x7FC00000#32) := by decide

/-- 95_test_vectors.md 2.6, 0x00000006. -/
theorem test_frame_fault_x10 :
    (nextOf (exec (.frameFaultX10 0#14 0#15 0b110#3) State.reset)).map (fun t => (t.fault, t.tempQ, t.reading)) =
      some (some true, none, some .fault) := by decide

/-- 95_test_vectors.md 2.6, 0x7FFC0004. -/
theorem test_frame_fault_100 :
    (nextOf (exec (.frameFault100 0x1FFF#14 0#15) State.reset)).map (fun t => (t.fault, t.tempQ, t.done)) =
      some (some true, none, true) := by decide

/-- A word placed for the next step, right after reset. -/
theorem test_placed_frame_runs_first :
    (nextOf (step (State.reset.withFetchWord 32 0xF0601900))).map (fun t => (t.tempQ, t.phase)) =
      some (some 0xFC18#16, .idle) := by decide

/-- An undriven line gives the free bit of this step, whatever it is. -/
theorem test_undriven_line_draws_the_free_bit :
    (with_ State.reset false false none).soBit = Config.freeSo 0 := rfl

/-! ### Witnesses: for every statement with hypotheses, states and operands that meet them together -/

/-- A state of each phase that has the invariant; BITLOW and BITHIGH at the given position. -/
def inv_ (p : Phase) (i : BitIdx) : State :=
  match p with
  | .idle => State.reset
  | .clkidle => { State.reset with phase := .clkidle }
  | .selassert => { State.reset with phase := .selassert }
  | .bitlow =>
    { State.reset with
      phase := .bitlow, bitidx := i, csN := false, sck := i != 31#5
      hist := State.reset.hist ++ [.drive .cs false, .drive .sck (i != 31#5)] }
  | .bitsample =>
    { State.reset with
      phase := .bitsample, bitidx := i, csN := false, hist := State.reset.hist ++ [.drive .cs false, .drive .sck false, .wait .low] }
  | .bithigh =>
    { State.reset with phase := .bithigh, bitidx := i, csN := false, hist := State.reset.hist ++ [.drive .cs false] }
  | .seldeassert =>
    { State.reset with
      phase := .seldeassert, bitidx := 0#5, csN := false, sck := true, frame := 0x06400000#32
      hist := State.reset.hist ++ [.drive .cs false, .drive .sck true] }
  | .decode =>
    { State.reset with
      phase := .decode, bitidx := 0#5, sck := true, frame := 0x06400000#32
      hist := State.reset.hist ++ [.drive .sck true] }

/-- Every phase has states with the invariant, at both ends of the position's range where the phase allows them
(EveryStepKeepsTheInvariant and the clauses of the micro-operations' statements that start from it). -/
theorem witness_invariant_in_every_phase :
    (inv_ .idle 31#5).Inv = true ∧ (inv_ .clkidle 31#5).Inv = true ∧ (inv_ .selassert 31#5).Inv = true ∧
    (inv_ .bitlow 31#5).Inv = true ∧ (inv_ .bitlow 30#5).Inv = true ∧ (inv_ .bitlow 0#5).Inv = true ∧
    (inv_ .bitsample 31#5).Inv = true ∧ (inv_ .bitsample 0#5).Inv = true ∧
    (inv_ .bithigh 31#5).Inv = true ∧ (inv_ .bithigh 0#5).Inv = true ∧
    (inv_ .seldeassert 0#5).Inv = true ∧ (inv_ .decode 0#5).Inv = true := by decide

theorem witness_phases_of_invariant_states :
    (inv_ .idle 31#5).phase = .idle ∧ (inv_ .clkidle 31#5).phase = .clkidle ∧ (inv_ .selassert 31#5).phase = .selassert ∧
    (inv_ .bitlow 31#5).phase = .bitlow ∧ (inv_ .bitsample 31#5).phase = .bitsample ∧ (inv_ .bithigh 0#5).phase = .bithigh ∧
    (inv_ .seldeassert 0#5).phase = .seldeassert ∧ (inv_ .decode 0#5).phase = .decode := by decide

/-- A step from an invariant state answers a next state (EveryStepKeepsTheInvariant, ReadingChangesOnlyAtDecodeAndInit,
DoneMarksExactlyTheStepsThatDecode, DecodeReportsTheVerdictOnTheFrame; the three cases of the reading: INIT, DECODE, another operation). -/
theorem witness_steps_from_the_invariant :
    (nextOf (step (with_ State.reset true false none))).isSome = true ∧ (with_ State.reset true false none).Inv = true ∧
    (nextOf (step (inv_ .decode 0#5))).isSome = true ∧ (nextOf (step (inv_ .clkidle 31#5))).isSome = true := by decide

/-- SamplesOnlyWhileTheClockIsLow. -/
theorem witness_sampling_step :
    (with_ (inv_ .bitsample 12#5) false false (some true)).Inv = true ∧
    (nextOf (step (with_ (inv_ .bitsample 12#5) false false (some true)))).map (·.hist) =
      some ((inv_ .bitsample 12#5).hist ++ [.sample 12#5 true]) := by decide

/-- DecodeOfEncodeIsTheInstruction, DecodeRejectsExactlyTheTooWide. -/
theorem witness_well_formed_instructions :
    (Instr.frameFaultXx1 0x3FFF#14 0x7FFF#15 0b111#3).WellFormed = true ∧
    (Instr.frameFaultX10 0#14 0#15 0b110#3).WellFormed = true ∧ (Instr.init true).WellFormed = true := by decide

/-- StepPerformsTheSelectedOperation: a pattern of each format selects an operation. -/
theorem witness_selected_patterns :
    Pattern.cmd 0b11#2 ∈ (with_ State.reset true true none).selected ∧
    Pattern.cmd 0b01#2 ∈ (with_ State.reset false true none).selected ∧
    Pattern.cmd 0b00#2 ∈ State.reset.selected ∧
    Pattern.seq 0b000#3 ∈ State.reset.selected ∧
    Pattern.seq 0b011#3 ∈ (inv_ .bitlow 31#5).selected ∧
    Pattern.frame 0x06400000#32 ∈ (inv_ .decode 0#5).selected := by decide

/-- StepObeysThePriorityOfThePort, ReadIsAcceptedWithoutTouchingTheLines, NopOnlyClearsDone, IdlePerformsReadOrNopByStart:
the command port in IDLE, and every other phase with `rst` = 0. -/
theorem witness_command_port :
    (with_ State.reset true false none).port.rst = true ∧
    (with_ State.reset false true none).port = ⟨false, true, none⟩ ∧ (with_ State.reset false true none).phase = .idle ∧
    State.reset.port = ⟨false, false, none⟩ ∧ State.reset.phase = .idle ∧
    (inv_ .clkidle 31#5).port.rst = false ∧ (inv_ .selassert 31#5).port.rst = false ∧ (inv_ .bitlow 31#5).port.rst = false ∧
    (inv_ .bitsample 31#5).port.rst = false ∧ (inv_ .bithigh 31#5).port.rst = false ∧
    (inv_ .seldeassert 0#5).port.rst = false ∧ (inv_ .decode 0#5).port.rst = false := by decide

/-- StartIsIgnoredWhileBusy. -/
theorem witness_busy_without_rst :
    (with_ (inv_ .bithigh 31#5) false false none).busy = true ∧
    (with_ (inv_ .bithigh 31#5) false false none).port.rst = false := by decide

/-- EveryStepCompletes, InitRefusesEqualPinIdentifiers: each way the pins can be equal, with and without `rst`. -/
theorem witness_equal_pins :
    let eq1 : Config := { Config.default with pinClk := 0 }
    let eq2 : Config := { Config.default with pinDin := 0 }
    let eq3 : Config := { Config.default with pinDin := 1 }
    eq1.pinSel = eq1.pinClk ∧ eq2.pinSel = eq2.pinDin ∧ eq3.pinClk = eq3.pinDin ∧
    eq1.pinsDistinct = false ∧ (with_ (State.resetWith eq1) true false none).port.rst = true ∧
    (State.resetWith eq1).port.rst = false := by decide

/-- EveryStepCompletes, InitPerformsTheConstruction, ResetStateHoldsTheSpecifiedValues, ResetHasTheInvariant,
BinaryRenderingIsExact: distinct pins, for both levels of the parameter, and an empty history. -/
theorem witness_distinct_pins :
    State.reset.cfg.pinsDistinct = true ∧ Config.default.WellFormed = true ∧
    ({ Config.default with sckResetLevel := true } : Config).pinsDistinct = true ∧
    (at_ .idle true true 0#5 0#32 false false none).hist = [] ∧
    (at_ .idle true true 0#5 0#32 false false none).cfg = Config.default ∧
    (with_ State.reset true false none).port.rst = true := by decide

/-- PlacedWordIsTheNextOperation: a word of each width. -/
theorem witness_table_words :
    decodeTableWord 2 0x1 = some .read ∧ decodeTableWord 2 0x2 = some (.init false) ∧ decodeTableWord 3 0x7 = some .decode ∧
    decodeTableWord 8 0x4 = some .bitsample ∧
    decodeTableWord 32 0xFFFFFFFF = some (.frameFaultXx1 0x3FFF#14 0x7FFF#15 0b111#3) := by decide

/-- BitsampleOrsTheDrawnBitIntoTheFrame: a driven line and one without a level. -/
theorem witness_data_line :
    (with_ (inv_ .bitsample 31#5) false false (some true)).port.so = some true ∧
    (with_ (inv_ .bitsample 31#5) false false none).port.so = none := by decide

/-- BithighDrivesTheClockHighAndCountsDown: position 0 and a position above it. -/
theorem witness_bit_positions : (inv_ .bithigh 0#5).bitidx = 0#5 ∧ (inv_ .bithigh 1#5).bitidx ≠ 0#5 := by decide

/-- TemperatureFrameDeliversItsField, FaultFrameDeliversTheMarkerOnly, FaultCheckIsTheOrOfTheBottomBits,
IgnoredBitsDoNotMatter: frames of both classes, and two frames that differ in other bits only. -/
theorem witness_frames :
    faultChk 0x06400000#32 = false ∧ faultChk 0x7FFC0004#32 = true ∧
    0x06400005#32 &&& 0x00000007#32 = 0xFFFFFFFD#32 &&& 0x00000007#32 ∧
    frameTempField 0x0641A8A0#32 = frameTempField 0x06400000#32 ∧
    frameFaultField 0x0641A8A0#32 = frameFaultField 0x06400000#32 := by decide

/-- SignExtensionDenotesTheFieldAsSigned, SignExtensionFormsAreEquivalent: the least width and the decided one, at both sides
of the sign change. -/
theorem witness_widths : 14 ≤ 14 ∧ 14 ≤ tempWidth ∧ (0x1FFF#14).toNat < 8192 ∧ ¬ (0x2000#14).toNat < 8192 := by decide

/-- EveryTemperatureRoundTrips, BinaryRenderingIsExact: the ends of the range, and a frame read as a value. -/
theorem witness_temperatures :
    (-8192 : Int) ≤ -8192 ∧ (8191 : Int) ≤ 8191 ∧ decodeReading 0x80000000#32 = .valid (-8192) := by decide

/-- OutputsShowTheResultRegisters: no reading, a fault, a value. -/
theorem witness_results :
    State.reset.valid = false ∧
    ({ State.reset with valid := true, fault := some true } : State).fault = some true ∧
    (at_ .idle true true 0#5 0#32 true true (some 0x0190#16)).valid = true ∧
    (at_ .idle true true 0#5 0#32 true true (some 0x0190#16)).fault = some false ∧
    (at_ .idle true true 0#5 0#32 true true (some 0x0190#16)).tempQ = some 0x0190#16 := by decide

/-- OperationsWriteOnlyTheirRegisters. -/
theorem witness_every_operation_answers :
    [Instr.init false, .read, .nop, .idle, .clkidle, .selassert, .bitlow, .bitsample, .bithigh, .seldeassert, .decode,
      .frameTemp 0#14 0#15, .frameFaultXx1 0#14 0#15 0b001#3, .frameFaultX10 0#14 0#15 0b010#3,
      .frameFault100 0#14 0#15].all (fun i => (nextOf (exec i State.reset)).isSome) = true := by decide

/-- LineActivityIsIndependentOfTheData: two states that agree on control and differ in data. -/
theorem witness_same_control_other_data :
    let s₁ := with_ (at_ .bitsample false false 12#5 0x06400000#32 false false none) false false (some true)
    let s₂ := with_ (at_ .bitsample false false 12#5 0xF0600000#32 true false (some 0x0190#16)) false false (some false)
    s₁.phase = s₂.phase ∧ s₁.bitidx = s₂.bitidx ∧ s₁.csN = s₂.csN ∧ s₁.sck = s₂.sck ∧ s₁.csOe = s₂.csOe ∧
    s₁.sckOe = s₂.sckOe ∧ s₁.soOe = s₂.soOe ∧ s₁.cfg = s₂.cfg ∧ s₁.port.rst = s₂.port.rst ∧
    s₁.port.start = s₂.port.start ∧ (nextOf (step s₁)).isSome = true ∧ (nextOf (step s₂)).isSome = true ∧
    s₁.frame ≠ s₂.frame := by decide

/-- A host that commands a READ and holds `start`, on a data line stuck at a level. -/
def reading_ (b : Bool) : State := { State.reset with inputs := List.replicate 101 ⟨false, true, some b⟩ }

/-- ReadHasItsWholeEffect, ReadFollowsTheStepTable, ReadIsOrderedOnTheLines, ReadTakesTheTicksOfTheFormula. -/
theorem witness_read_command :
    (reading_ true).commandsRead ∧ (reading_ true).csN = true :=
  ⟨⟨rfl, rfl, by decide⟩, rfl⟩

/-- StuckLineIsNotDetected, at both levels. -/
theorem witness_stuck_line :
    (reading_ true).commandsRead ∧ (∀ i, i < 32 → (reading_ true).bitOfRead i = true) ∧
    (reading_ false).commandsRead ∧ (∀ i, i < 32 → (reading_ false).bitOfRead i = false) :=
  ⟨⟨rfl, rfl, by decide⟩, by decide, ⟨rfl, rfl, by decide⟩, by decide⟩

/-- PresentedFrameIsDelivered; ReadTemperatureReturnsTheDecodedFrame, at rest on a device that sends a frame, and busy. -/
theorem witness_presented_frame :
    let s : State := { State.reset with inputs := readInputs 0xF0601900#32 ++ [⟨false, true, none⟩] }
    s.phase = .idle ∧ s.inputs = readInputs 0xF0601900#32 ++ [⟨false, true, none⟩] ∧
      (readInputs 0xF0601900#32).length = 101 ∧
      (∀ k, k < 32 → (s.portAt (4 + 3 * k)).so = (serialStream 0xF0601900#32)[k]?) ∧
      (inv_ .bithigh 31#5).phase ≠ .idle := by decide

/-- 30_encoding.md R82: the call commands the READ itself, whatever the script holds for `rst` and `start`. -/
theorem test_call_commands_read :
    (nextOf (step ((with_ State.reset true false none).commanding true))).map (fun t => (t.phase, t.hist)) =
      some (.clkidle, State.reset.hist) := by decide

/-- 30_encoding.md R82, 40_commands.md R94: no call while a READ is in progress. -/
theorem test_no_call_while_busy : readTemperature (inv_ .bithigh 0#5) = none := by decide

/-- ConstructionTakesThePins: pins that may be taken, and each pair that may not be equal. -/
theorem witness_construction :
    (nextOf (thermocoupleReader 7 8 9 State.reset)).map (fun t => (t.cfg.pinSel, t.cfg.pinClk, t.cfg.pinDin)) =
      some (7, 8, 9) ∧
    (nextOf (thermocoupleReader 7 7 9 State.reset)).isNone = true ∧
    (nextOf (thermocoupleReader 7 8 7 State.reset)).isNone = true ∧
    (nextOf (thermocoupleReader 7 8 8 State.reset)).isNone = true := by decide

/-- PinSpaceHasExactlyTheThreeLines: an identifier of no line. -/
theorem witness_other_pin :
    State.reset.cfg.pinsDistinct = true ∧ 3 ≠ State.reset.cfg.pinSel ∧ 3 ≠ State.reset.cfg.pinClk ∧
    3 ≠ State.reset.cfg.pinDin := by decide

/-- The serial stream of 95_test_vectors.md 2.7, frame 0x06410001. -/
theorem test_serial_stream_msb_first :
    serialStream 0x06410001#32 =
      [false, false, false, false, false, true, true, false, false, true, false, false, false, false, false, true,
        false, false, false, false, false, false, false, false, false, false, false, false, false, false, false, true] := by
  decide

/-- ReadFollowsTheStepTable: the clauses at both ends of their ranges of steps. -/
theorem witness_step_numbers :
    phaseOfRead 1 = .clkidle ∧ phaseOfRead 2 = .selassert ∧ phaseOfRead 3 = .bitlow ∧ phaseOfRead 4 = .bitsample ∧
    phaseOfRead 98 = .bithigh ∧ phaseOfRead 99 = .seldeassert ∧ phaseOfRead 100 = .decode ∧ phaseOfRead 101 = .idle := by
  decide

/-- EveryReadEnds: in the first phase of a READ and in the last one of a bit. -/
theorem witness_read_in_progress :
    (inv_ .clkidle 31#5).busy = true ∧ (inv_ .bithigh 31#5).busy = true ∧
    (∀ n, n < 100 → ((inv_ .clkidle 31#5).portAt n).rst = false) := by decide

end Sys2Proof.Tests
end

section
/-! The pin space by identifier: which line each identifier names, and what an access of the line it names does. -/

namespace Sys2Proof.Machine

theorem pinsDistinct_iff (c : Config) :
    c.pinsDistinct = true ↔ c.pinSel ≠ c.pinClk ∧ c.pinSel ≠ c.pinDin ∧ c.pinClk ≠ c.pinDin := by
  simp [Config.pinsDistinct, and_assoc]

/-- With distinct identifiers `lineOf` undoes `pinOf`: no line hides behind one that is looked up before it. -/
theorem lineOf_pinOf {c : Config} (h : c.pinsDistinct = true) (l : Line) : lineOf c (pinOf c l) = some l := by
  obtain ⟨hSelClk, hSelDin, hClkDin⟩ := (pinsDistinct_iff c).mp h
  cases l with
  | cs => simp [lineOf, pinOf]
  | sck => simp [lineOf, pinOf, hSelClk.symm]
  | so => simp [lineOf, pinOf, hSelDin.symm, hClkDin.symm]

theorem lineOf_eq_none {c : Config} {pin : Nat} (hSel : pin ≠ c.pinSel) (hClk : pin ≠ c.pinClk)
    (hDin : pin ≠ c.pinDin) : lineOf c pin = none := by
  simp [lineOf, hSel, hClk, hDin]

section
variable {s : State} {pin : Nat}

theorem memWrite_of_lineOf_cs (h : lineOf s.cfg pin = some .cs) (v : Bool) :
    memWrite pin v s = some (pinWrite .cs v s) := by
  simp [memWrite, h]

theorem memWrite_of_lineOf_sck (h : lineOf s.cfg pin = some .sck) (v : Bool) :
    memWrite pin v s = some (pinWrite .sck v s) := by
  simp [memWrite, h]

/-- Only the two output lines are written (20_memory.md R57). -/
theorem memWrite_eq_none_iff (v : Bool) :
    memWrite pin v s = none ↔ lineOf s.cfg pin ≠ some .cs ∧ lineOf s.cfg pin ≠ some .sck := by
  unfold memWrite
  split <;> simp [*]

theorem memRead_of_lineOf_so (h : lineOf s.cfg pin = some .so) : memRead pin s = some s.soBit := by
  simp [memRead, h]

/-- Only data-in is read (20_memory.md R57). -/
theorem memRead_eq_none_iff : memRead pin s = none ↔ lineOf s.cfg pin ≠ some .so := by
  unfold memRead
  split <;> simp [*]

end

/-- Settles O16: each of the three identifiers names its own line (`lineOf_pinOf`) and any other names none
(`lineOf_eq_none`); what an access does is fixed by the line named. -/
theorem pinSpaceHasExactlyTheThreeLines : Obligations.PinSpaceHasExactlyTheThreeLines := by
  intro s hDistinct
  have hSel : lineOf s.cfg s.cfg.pinSel = some .cs := lineOf_pinOf hDistinct .cs
  have hClk : lineOf s.cfg s.cfg.pinClk = some .sck := lineOf_pinOf hDistinct .sck
  have hDin : lineOf s.cfg s.cfg.pinDin = some .so := lineOf_pinOf hDistinct .so
  refine ⟨fun v => ⟨memWrite_of_lineOf_cs hSel v, memWrite_of_lineOf_sck hClk v, ?dinNotWritten⟩,
    memRead_of_lineOf_so hDin, ?selNotRead, ?clkNotRead, ?otherPin⟩
  case dinNotWritten => simp [memWrite_eq_none_iff, hDin]
  case selNotRead => simp [memRead_eq_none_iff, hSel]
  case clkNotRead => simp [memRead_eq_none_iff, hClk]
  case otherPin =>
    intro pin hNotSel hNotClk hNotDin
    have hNone : lineOf s.cfg pin = none := lineOf_eq_none hNotSel hNotClk hNotDin
    simp [memWrite_eq_none_iff, memRead_eq_none_iff, hNone]

end Sys2Proof.Machine
end

section
/-! What one step performs, by name: INIT, the two commands at rest, or the micro-operation of the phase. -/

namespace Sys2Proof.Machine

/-! ### nextBit: only the position and the phase change -/

@[simp] theorem nextBit_frame (s : State) : (nextBit s).frame = s.frame := by rw [nextBit_eq]
@[simp] theorem nextBit_csN (s : State) : (nextBit s).csN = s.csN := by rw [nextBit_eq]
@[simp] theorem nextBit_sck (s : State) : (nextBit s).sck = s.sck := by rw [nextBit_eq]
@[simp] theorem nextBit_csOe (s : State) : (nextBit s).csOe = s.csOe := by rw [nextBit_eq]
@[simp] theorem nextBit_sckOe (s : State) : (nextBit s).sckOe = s.sckOe := by rw [nextBit_eq]
@[simp] theorem nextBit_soOe (s : State) : (nextBit s).soOe = s.soOe := by rw [nextBit_eq]
@[simp] theorem nextBit_fault (s : State) : (nextBit s).fault = s.fault := by rw [nextBit_eq]
@[simp] theorem nextBit_tempQ (s : State) : (nextBit s).tempQ = s.tempQ := by rw [nextBit_eq]
@[simp] theorem nextBit_valid (s : State) : (nextBit s).valid = s.valid := by rw [nextBit_eq]
@[simp] theorem nextBit_hist (s : State) : (nextBit s).hist = s.hist := by rw [nextBit_eq]
@[simp] theorem nextBit_cfg (s : State) : (nextBit s).cfg = s.cfg := by rw [nextBit_eq]
@[simp] theorem nextBit_inputs (s : State) : (nextBit s).inputs = s.inputs := by rw [nextBit_eq]
@[simp] theorem nextBit_freeIdx (s : State) : (nextBit s).freeIdx = s.freeIdx := by rw [nextBit_eq]

/-! ### The operations a step performs -/

theorem execInit_of_distinct {s : State} (st : Bool) (h : s.cfg.pinsDistinct = true) :
    execInit st s = .next (construct s) := by
  simp [execInit, h]

theorem execInit_of_not_distinct {s : State} (st : Bool) (h : s.cfg.pinsDistinct = false) :
    execInit st s = .refused .pinsNotDistinct := by
  simp [execInit, h]

/-- INIT answers only on a machine with distinct pins, and then with the construction. -/
theorem execInit_eq_next {st : Bool} {s u : State} (h : execInit st s = .next u) :
    s.cfg.pinsDistinct = true ∧ u = construct s := by
  cases hPins : s.cfg.pinsDistinct with
  | true => exact ⟨rfl, (Host.Outcome.next.inj ((execInit_of_distinct st hPins).symm.trans h)).symm⟩
  | false => cases (execInit_of_not_distinct st hPins).symm.trans h

/-- `Performs s u`: the operation that a step from `s` performs leads to `u`, before the environment's move (`tick`). One
constructor per operation, with the condition under which the step selects it (40_commands.md R95). -/
inductive Performs (s : State) : State → Prop
  | init (hRst : s.port.rst = true) (hPins : s.cfg.pinsDistinct = true) : Performs s (construct s)
  | read (hRst : s.port.rst = false) (hPhase : s.phase = .idle) (hStart : s.port.start = true) :
      Performs s (acceptRead s)
  | nop (hRst : s.port.rst = false) (hPhase : s.phase = .idle) (hStart : s.port.start = false) :
      Performs s (clearDone s)
  | clkidle (hRst : s.port.rst = false) (hPhase : s.phase = .clkidle) :
      Performs s (clearDone (setPhase .selassert (clearFrame (pinWrite .sck false s))))
  | selassert (hRst : s.port.rst = false) (hPhase : s.phase = .selassert) :
      Performs s (clearDone (setPhase .bitlow (waitFor .settle (pinWrite .cs false s))))
  | bitlow (hRst : s.port.rst = false) (hPhase : s.phase = .bitlow) :
      Performs s (clearDone (setPhase .bitsample (waitFor .low (pinWrite .sck false s))))
  | bitsample (hRst : s.port.rst = false) (hPhase : s.phase = .bitsample) :
      Performs s (clearDone (setPhase .bithigh (sampleBit s.soBit s)))
  | bithigh (hRst : s.port.rst = false) (hPhase : s.phase = .bithigh) :
      Performs s (clearDone (nextBit (waitFor .high (pinWrite .sck true s))))
  | seldeassert (hRst : s.port.rst = false) (hPhase : s.phase = .seldeassert) :
      Performs s (clearDone (setPhase .decode (pinWrite .cs true s)))
  | decodeFault (hRst : s.port.rst = false) (hPhase : s.phase = .decode) (hFault : faultChk s.frame = true) :
      Performs s (reportFault s)
  | decodeTemp (hRst : s.port.rst = false) (hPhase : s.phase = .decode) (hFault : faultChk s.frame = false) :
      Performs s (reportTemp (sext (extractField s.frame)) s)

/-- A step that answers a next state performed an operation and let the environment move. -/
theorem performs_of_step {s t : State} (h : step s = .next t) : ∃ u, Performs s u ∧ t = u.tick := by
  have hTick {u : State} (he : step s = .next u.tick) : t = u.tick := Host.Outcome.next.inj (h.symm.trans he)
  obtain ⟨hRst, he⟩ | ⟨hRst, ⟨hPhase, he⟩ | ⟨hPhase, he⟩ | ⟨hPhase, he⟩ | ⟨hPhase, he⟩ | ⟨hPhase, he⟩ |
    ⟨hPhase, he⟩ | ⟨hPhase, he⟩ | ⟨hPhase, he⟩⟩ := step_cases s
  · obtain ⟨u, hu, rfl⟩ := step_eq_next h
    rw [fetch_of_rst hRst] at hu
    obtain ⟨hPins, rfl⟩ := execInit_eq_next (st := s.port.start) hu
    exact ⟨_, .init hRst hPins, rfl⟩
  · cases hStart : s.port.start with
    | true => exact ⟨_, .read hRst hPhase hStart, hTick (by simp [he, execIdle, hStart])⟩
    | false => exact ⟨_, .nop hRst hPhase hStart, hTick (by simp [he, execIdle, hStart])⟩
  · exact ⟨_, .clkidle hRst hPhase, hTick he⟩
  · exact ⟨_, .selassert hRst hPhase, hTick he⟩
  · exact ⟨_, .bitlow hRst hPhase, hTick he⟩
  · exact ⟨_, .bitsample hRst hPhase, hTick he⟩
  · exact ⟨_, .bithigh hRst hPhase, hTick he⟩
  · exact ⟨_, .seldeassert hRst hPhase, hTick he⟩
  · cases hFault : faultChk s.frame with
    | true => exact ⟨_, .decodeFault hRst hPhase hFault, hTick (by simp [he, execDecode, hFault])⟩
    | false => exact ⟨_, .decodeTemp hRst hPhase hFault, hTick (by simp [he, execDecode, hFault])⟩

/-- Settles O13: equal pins are not distinct, and INIT looks at nothing else before it refuses. -/
theorem initRefusesEqualPinIdentifiers : Obligations.InitRefusesEqualPinIdentifiers := by
  intro st s hEqual
  refine execInit_of_not_distinct st (Bool.eq_false_iff.mpr fun hDistinct => ?_)
  obtain ⟨hSelClk, hSelDin, hClkDin⟩ := (pinsDistinct_iff _).mp hDistinct
  obtain h | h | h := hEqual
  · exact hSelClk h
  · exact hSelDin h
  · exact hClkDin h

/-- Settles O11: the values are those `resetWith` is defined by, and the construction (`construct_eq`) writes each of
them. -/
theorem resetStateHoldsTheSpecifiedValues : Obligations.ResetStateHoldsTheSpecifiedValues := by
  intro c
  refine ⟨by simp [State.resetWith, State.busy, State.reading, constructionEvents], fun st s hPins hCfg hHist => ?_⟩
  subst hCfg
  have hInit : exec (.init st) s = .next (construct s) := execInit_of_distinct st hPins
  simp [hInit, construct_eq, State.resetWith, hHist]

/-- Who writes the result registers and sets `done`: INIT clears them, DECODE reports its verdict, and no other operation
writes a result or leaves `done` set (10_state.md R28 to R31). -/
theorem resultRegisters_of_performs {s u : State} (h : Performs s u) :
    (s.port.rst = true ∧ u = construct s) ∨
    (s.port.rst = false ∧ s.phase = .decode ∧
      u = if faultChk s.frame then reportFault s else reportTemp (sext (extractField s.frame)) s) ∨
    (s.port.rst = false ∧ s.phase ≠ .decode ∧
      u.done = false ∧ u.valid = s.valid ∧ u.fault = s.fault ∧ u.tempQ = s.tempQ) := by
  cases h with
  | init hRst => exact .inl ⟨hRst, rfl⟩
  | decodeFault hRst hPhase hFault => exact .inr (.inl ⟨hRst, hPhase, by simp [hFault]⟩)
  | decodeTemp hRst hPhase hFault => exact .inr (.inl ⟨hRst, hPhase, by simp [hFault]⟩)
  | read hRst hPhase => exact .inr (.inr ⟨hRst, by simp [hPhase], rfl, rfl, rfl, rfl⟩)
  | nop hRst hPhase => exact .inr (.inr ⟨hRst, by simp [hPhase], rfl, rfl, rfl, rfl⟩)
  | clkidle hRst hPhase => exact .inr (.inr ⟨hRst, by simp [hPhase], rfl, rfl, rfl, rfl⟩)
  | selassert hRst hPhase => exact .inr (.inr ⟨hRst, by simp [hPhase], rfl, rfl, rfl, rfl⟩)
  | bitlow hRst hPhase => exact .inr (.inr ⟨hRst, by simp [hPhase], rfl, rfl, rfl, rfl⟩)
  | bitsample hRst hPhase => exact .inr (.inr ⟨hRst, by simp [hPhase], rfl, rfl, rfl, rfl⟩)
  | bithigh hRst hPhase => exact .inr (.inr ⟨hRst, by simp [hPhase], by simp⟩)
  | seldeassert hRst hPhase => exact .inr (.inr ⟨hRst, by simp [hPhase], rfl, rfl, rfl, rfl⟩)

theorem done_reportVerdict (s : State) (b : Bool) (q : Quarters) :
    (if b then reportFault s else reportTemp q s).done = true := by
  cases b <;> rfl

/-- Settles O37: DECODE sets `done`, INIT and every other operation clear it. -/
theorem doneMarksExactlyTheStepsThatDecode : Obligations.DoneMarksExactlyTheStepsThatDecode := by
  intro s t h
  obtain ⟨u, hu, rfl⟩ := performs_of_step h
  obtain ⟨hRst, rfl⟩ | ⟨hRst, hPhase, rfl⟩ | ⟨hRst, hPhase, hDone, -⟩ := resultRegisters_of_performs hu
  · simp [construct, hRst]
  · simp [done_reportVerdict, hRst, hPhase]
  · simp [hDone, hPhase]

end Sys2Proof.Machine
end

section
/-! What the host sees: `busy`, the reading and the output ports, by the registers they show (10_state.md R28 to R34). -/

namespace Sys2Proof.Machine

theorem busy_eq_false_iff (s : State) : s.busy = false ↔ s.phase = .idle := by simp [State.busy]

theorem busy_eq_true_iff (s : State) : s.busy = true ↔ s.phase ≠ .idle := by simp [State.busy]

theorem faultPort_of_some {s : State} {b : Bool} (h : s.fault = some b) : s.faultPort = b := by
  simp [State.faultPort, h]

theorem tempQPort_of_some {s : State} {q : Quarters} (h : s.tempQ = some q) : s.tempQPort = q := by
  simp [State.tempQPort, h]

theorem reading_of_not_valid {s : State} (h : s.valid = false) : s.reading = none := by
  simp [State.reading, h]

theorem reading_of_fault {s : State} (hValid : s.valid = true) (hFault : s.fault = some true) :
    s.reading = some .fault := by
  simp [State.reading, hValid, faultPort_of_some hFault]

theorem reading_of_temp {s : State} {q : Quarters} (hValid : s.valid = true) (hFault : s.fault = some false)
    (hTemp : s.tempQ = some q) : s.reading = some (.valid q.toInt) := by
  simp [State.reading, hValid, faultPort_of_some hFault, tempQPort_of_some hTemp]

/-- Settles O36: the ports are the registers by definition; where the result registers hold values, the reading is
`reading_of_fault` or `reading_of_temp`. -/
theorem outputsShowTheResultRegisters : Obligations.OutputsShowTheResultRegisters := by
  intro s
  refine ⟨busy_eq_false_iff s, ⟨rfl, rfl, rfl, rfl, rfl, rfl, rfl, busy_eq_true_iff s⟩,
    fun b hFault => faultPort_of_some hFault, fun q hTemp => tempQPort_of_some hTemp, rfl,
    fun hValid => ?noReading, fun hValid hFault => ?faultMarker, fun q hValid hFault hTemp => ?temperature⟩
  case noReading =>
    have hReading := reading_of_not_valid hValid
    exact ⟨hReading, congrArg (f32Of s.cfg) hReading⟩
  case faultMarker =>
    have hReading := reading_of_fault hValid hFault
    exact ⟨hReading, faultPort_of_some hFault, congrArg (f32Of s.cfg) hReading⟩
  case temperature =>
    have hReading := reading_of_temp hValid hFault hTemp
    exact ⟨hReading, faultPort_of_some hFault, tempQPort_of_some hTemp, congrArg (f32Of s.cfg) hReading⟩

/-- The three forms of consistent result registers (10_state.md R28 to R30). -/
theorem resultConsistent_iff (s : State) :
    s.resultConsistent = true ↔
      (s.valid = false ∧ s.fault = none ∧ s.tempQ = none) ∨
      (s.valid = true ∧ s.fault = some true ∧ s.tempQ = none) ∨
      (s.valid = true ∧ s.fault = some false ∧ ∃ q, s.tempQ = some q ∧ -8192 ≤ q.toInt ∧ q.toInt ≤ 8191) := by
  unfold State.resultConsistent
  split <;> simp_all

/-- Consistent result registers fix the reading: no free value shows in it. -/
theorem reading_eq_of_resultConsistent {s t : State} (hs : s.resultConsistent = true) (hValid : t.valid = s.valid)
    (hFault : t.fault = s.fault) (hTemp : t.tempQ = s.tempQ) : t.reading = s.reading := by
  obtain ⟨v, -, -⟩ | ⟨v, f, -⟩ | ⟨v, f, q, h, -⟩ := (resultConsistent_iff s).mp hs
  · rw [reading_of_not_valid v, reading_of_not_valid (hValid.trans v)]
  · rw [reading_of_fault v f, reading_of_fault (hValid.trans v) (hFault.trans f)]
  · rw [reading_of_temp v f h, reading_of_temp (hValid.trans v) (hFault.trans f) (hTemp.trans h)]

/-- The report of DECODE reads as the decode of the frame (42_decoder.md R129). -/
theorem reading_reportVerdict (s : State) (f : Word) :
    (if faultChk f then reportFault s else reportTemp (sext (extractField f)) s).tick.reading =
      some (decodeReading f) := by
  unfold decodeReading
  split
  · exact reading_of_fault rfl rfl
  · exact reading_of_temp rfl rfl rfl

/-- Settles O38: INIT clears `valid`, DECODE writes the verdict, and every other operation keeps the result registers,
which fix the reading. -/
theorem readingChangesOnlyAtDecodeAndInit : Obligations.ReadingChangesOnlyAtDecodeAndInit := by
  intro s t hInv h
  obtain ⟨-, -, -, -, -, hRes, -, -⟩ := (inv_iff s).mp hInv
  obtain ⟨u, hu, rfl⟩ := performs_of_step h
  obtain ⟨hRst, rfl⟩ | ⟨hRst, hPhase, rfl⟩ | ⟨hRst, hPhase, -, hValid, hFault, hTemp⟩ := resultRegisters_of_performs hu
  · simpa [hRst] using reading_of_not_valid (s := (construct s).tick) rfl
  · simpa [hRst, hPhase] using reading_reportVerdict s s.frame
  · simpa [hRst, hPhase] using reading_eq_of_resultConsistent (t := u.tick) hRes hValid hFault hTemp

end Sys2Proof.Machine
end

section
/-! What each operation writes: one case per instruction (10_state.md R21 to R31, 20_memory.md R57). -/

namespace Sys2Proof.Machine

/-- Settles O39: the next state of each instruction is the one its meaning names, and the field lemmas of the operations
say what it leaves. -/
theorem operationsWriteOnlyTheirRegisters : Obligations.OperationsWriteOnlyTheirRegisters := by
  intro i s t h
  cases i with
  | init st =>
    obtain ⟨-, rfl⟩ := execInit_eq_next (st := st) h
    simp [Instr.mnemonic, construct_eq]
  | idle =>
    obtain rfl := Host.Outcome.next.inj h
    cases s.port.start <;> simp [Instr.mnemonic, acceptRead]
  | decode =>
    obtain rfl := Host.Outcome.next.inj h
    cases faultChk s.frame <;> simp [Instr.mnemonic]
  | read | nop | clkidle | selassert | bitlow | bitsample | bithigh | seldeassert | frameTemp | frameFaultXx1
  | frameFaultX10 | frameFault100 =>
    obtain rfl := Host.Outcome.next.inj h
    simp [Instr.mnemonic, acceptRead]

end Sys2Proof.Machine
end

section
/-! Two receivers with the same control and other data, side by side: what each state operation keeps in common, and that
every operation so keeps it (10_state.md R35). -/

namespace Sys2Proof.Machine

/-- Two states agree on the sequencer position, the lines and the parameters, and since the histories `h₁`, `h₂` they have
added the same events, up to the bit of a sample. -/
structure InStep (h₁ h₂ : List Event) (s₁ s₂ : State) : Prop where
  phase : s₁.phase = s₂.phase
  bitidx : s₁.bitidx = s₂.bitidx
  csN : s₁.csN = s₂.csN
  sck : s₁.sck = s₂.sck
  csOe : s₁.csOe = s₂.csOe
  sckOe : s₁.sckOe = s₂.sckOe
  soOe : s₁.soOe = s₂.soOe
  cfg : s₁.cfg = s₂.cfg
  events : ∃ es₁ es₂ : List Event, s₁.hist = h₁ ++ es₁ ∧ s₂.hist = h₂ ++ es₂ ∧
    es₁.map Event.withoutBit = es₂.map Event.withoutBit

namespace InStep

variable {h₁ h₂ : List Event} {s₁ s₂ : State}

/-- Two events that differ at most in a sample's bit. -/
theorem emit (h : InStep h₁ h₂ s₁ s₂) {e₁ e₂ : Event} (he : e₁.withoutBit = e₂.withoutBit) :
    InStep h₁ h₂ (emit e₁ s₁) (emit e₂ s₂) := by
  obtain ⟨es₁, es₂, hs₁, hs₂, hes⟩ := h.events
  exact { h with events := ⟨es₁ ++ [e₁], es₂ ++ [e₂], by simp [hs₁], by simp [hs₂], by simp [hes, he]⟩ }

theorem pinDir (h : InStep h₁ h₂ s₁ s₂) (l : Line) (m : Direction) : InStep h₁ h₂ (pinDir l m s₁) (pinDir l m s₂) := by
  cases l with
  | cs => exact { h with csOe := rfl, events := (h.emit (e₂ := .dir .cs m) rfl).events }
  | sck => exact { h with sckOe := rfl, events := (h.emit (e₂ := .dir .sck m) rfl).events }
  | so => exact { h with soOe := rfl, events := (h.emit (e₂ := .dir .so m) rfl).events }

theorem pinWrite (h : InStep h₁ h₂ s₁ s₂) (l : OutLine) (v : Bool) :
    InStep h₁ h₂ (pinWrite l v s₁) (pinWrite l v s₂) := by
  cases l with
  | cs => exact { h with csN := rfl, events := (h.emit (e₂ := .drive .cs v) rfl).events }
  | sck => exact { h with sck := rfl, events := (h.emit (e₂ := .drive .sck v) rfl).events }

theorem waitFor (h : InStep h₁ h₂ s₁ s₂) (k : WaitKind) : InStep h₁ h₂ (waitFor k s₁) (waitFor k s₂) := h.emit rfl

theorem setPhase (h : InStep h₁ h₂ s₁ s₂) (p : Phase) : InStep h₁ h₂ (setPhase p s₁) (setPhase p s₂) :=
  { h with phase := rfl }

theorem clearDone (h : InStep h₁ h₂ s₁ s₂) : InStep h₁ h₂ (clearDone s₁) (clearDone s₂) := { h with }

theorem clearFrame (h : InStep h₁ h₂ s₁ s₂) : InStep h₁ h₂ (clearFrame s₁) (clearFrame s₂) := { h with bitidx := rfl }

/-- The two bits drawn may differ. -/
theorem sampleBit (h : InStep h₁ h₂ s₁ s₂) (b₁ b₂ : Bool) : InStep h₁ h₂ (sampleBit b₁ s₁) (sampleBit b₂ s₂) :=
  have hSample : (Event.sample s₁.bitidx b₁).withoutBit = (Event.sample s₂.bitidx b₂).withoutBit :=
    congrArg (Event.sample · false) h.bitidx
  { h with events := (h.emit hSample).events }

theorem nextBit (h : InStep h₁ h₂ s₁ s₂) : InStep h₁ h₂ (nextBit s₁) (nextBit s₂) := by
  rw [nextBit_eq, nextBit_eq]
  exact { h with bitidx := by simp only [h.bitidx], phase := by simp only [h.bitidx] }

theorem construct (h : InStep h₁ h₂ s₁ s₂) : InStep h₁ h₂ (construct s₁) (construct s₂) := by
  have hLines := (((h.pinDir .cs .out).pinWrite .cs true).pinDir .sck .out).pinWrite .sck s₁.cfg.sckResetLevel
  have hAll := hLines.pinDir .so .inp
  rw [Machine.construct, Machine.construct, ← h.cfg]
  exact { hAll with phase := rfl, bitidx := rfl }

theorem acceptRead (h : InStep h₁ h₂ s₁ s₂) : InStep h₁ h₂ (acceptRead s₁) (acceptRead s₂) :=
  h.clearDone.setPhase .clkidle

/-- A fault on one side and a temperature on the other do not part the two. -/
theorem reportVerdict (h : InStep h₁ h₂ s₁ s₂) (b₁ b₂ : Bool) (q₁ q₂ : Quarters) :
    InStep h₁ h₂ (if b₁ then reportFault s₁ else reportTemp q₁ s₁) (if b₂ then reportFault s₂ else reportTemp q₂ s₂) := by
  cases b₁ <;> cases b₂ <;> exact { h with phase := rfl }

theorem tick (h : InStep h₁ h₂ s₁ s₂) : InStep h₁ h₂ s₁.tick s₂.tick := { h with }

end InStep

/-- Every operation keeps two receivers in step. -/
theorem inStep_of_exec {h₁ h₂ : List Event} {s₁ s₂ u₁ u₂ : State} {i : Instr} (h : InStep h₁ h₂ s₁ s₂)
    (hStart : s₁.port.start = s₂.port.start) (he₁ : exec i s₁ = .next u₁) (he₂ : exec i s₂ = .next u₂) :
    InStep h₁ h₂ u₁ u₂ := by
  cases i with
  | init st =>
    obtain ⟨-, rfl⟩ := execInit_eq_next (st := st) he₁
    obtain ⟨-, rfl⟩ := execInit_eq_next (st := st) he₂
    exact h.construct
  | read => cases he₁; cases he₂; exact h.acceptRead
  | nop => cases he₁; cases he₂; exact h.clearDone
  | idle =>
    cases he₁; cases he₂
    rw [hStart]
    split
    · exact h.acceptRead
    · exact h.clearDone
  | clkidle => cases he₁; cases he₂; exact ((h.pinWrite .sck false).clearFrame.setPhase .selassert).clearDone
  | selassert => cases he₁; cases he₂; exact (((h.pinWrite .cs false).waitFor .settle).setPhase .bitlow).clearDone
  | bitlow => cases he₁; cases he₂; exact (((h.pinWrite .sck false).waitFor .low).setPhase .bitsample).clearDone
  | bitsample => cases he₁; cases he₂; exact ((h.sampleBit _ _).setPhase .bithigh).clearDone
  | bithigh => cases he₁; cases he₂; exact ((h.pinWrite .sck true).waitFor .high).nextBit.clearDone
  | seldeassert => cases he₁; cases he₂; exact ((h.pinWrite .cs true).setPhase .decode).clearDone
  | decode => cases he₁; cases he₂; exact h.reportVerdict _ _ _ _
  | frameTemp t g => cases he₁; cases he₂; exact h.reportVerdict false false _ _
  | frameFaultXx1 t g b => cases he₁; cases he₂; exact h.reportVerdict true true 0 0
  | frameFaultX10 t g b => cases he₁; cases he₂; exact h.reportVerdict true true 0 0
  | frameFault100 t g => cases he₁; cases he₂; exact h.reportVerdict true true 0 0

/-- The operation of a step is fixed by the command port and the phase. -/
theorem fetch_congr {s₁ s₂ : State} (hRst : s₁.port.rst = s₂.port.rst) (hStart : s₁.port.start = s₂.port.start)
    (hPhase : s₁.phase = s₂.phase) : s₁.fetch = s₂.fetch := by
  simp only [State.fetch, PortIn.command, hRst, hStart, hPhase]

/-- Settles O40: the two steps perform the same operation (`fetch_congr`), which keeps them in step. -/
theorem lineActivityIsIndependentOfTheData : Obligations.LineActivityIsIndependentOfTheData := by
  intro s₁ s₂ t₁ t₂ hPhase hIdx hCs hSck hCsOe hSckOe hSoOe hCfg hRst hStart hStep₁ hStep₂
  have h : InStep s₁.hist s₂.hist s₁ s₂ :=
    ⟨hPhase, hIdx, hCs, hSck, hCsOe, hSckOe, hSoOe, hCfg, [], [], by simp, by simp, rfl⟩
  obtain ⟨u₁, he₁, rfl⟩ := step_eq_next hStep₁
  obtain ⟨u₂, he₂, rfl⟩ := step_eq_next hStep₂
  rw [fetch_congr hRst hStart hPhase] at he₁
  obtain ⟨phase, bitidx, csN, sck, csOe, sckOe, soOe, cfg, events⟩ := (inStep_of_exec h hStart he₁ he₂).tick
  exact ⟨phase, bitidx, csN, sck, csOe, sckOe, soOe, cfg, events⟩

end Sys2Proof.Machine
end

section
/-! The invariant of a run: what each state operation does to the levels the history shows, then one lemma per operation
of a step (10_state.md R42). -/

namespace Sys2Proof.Machine

/-! ### The levels the history shows (10_state.md R37) -/

/-- The last drives in the history are the output registers. -/
def State.LinesShown (s : State) : Prop :=
  levelAfter .cs true s.hist = s.csN ∧ levelAfter .sck s.cfg.sckResetLevel s.hist = s.sck

theorem historyShowsLines_iff (s : State) :
    s.historyShowsLines = true ↔
      s.LinesShown ∧ (s.phase = .bitsample → [Event.drive .sck false, Event.wait .low] <:+ s.hist) := by
  simp [State.historyShowsLines, State.LinesShown, List.isSuffixOf_iff_suffix, imp_iff_not_or]

theorem historyShowsLines_of_linesShown {s : State} (h : s.LinesShown) (hPhase : s.phase ≠ .bitsample) :
    s.historyShowsLines = true :=
  (historyShowsLines_iff s).mpr ⟨h, fun hp => absurd hp hPhase⟩

namespace State.LinesShown

variable {s : State}

theorem pinWrite (h : s.LinesShown) (l : OutLine) (v : Bool) : (pinWrite l v s).LinesShown := by
  obtain ⟨hCs, hSck⟩ := h
  cases l with
  | cs => exact ⟨by simp [levelAfter_append, levelAfter], by simpa [levelAfter_append, levelAfter] using hSck⟩
  | sck => exact ⟨by simpa [levelAfter_append, levelAfter] using hCs, by simp [levelAfter_append, levelAfter]⟩

theorem waitFor (h : s.LinesShown) (k : WaitKind) : (waitFor k s).LinesShown := by
  simpa [State.LinesShown, levelAfter_append, levelAfter] using h

theorem sampleBit (h : s.LinesShown) (b : Bool) : (sampleBit b s).LinesShown := by
  simpa [State.LinesShown, levelAfter_append, levelAfter] using h

theorem nextBit (h : s.LinesShown) : (nextBit s).LinesShown := by
  simpa [State.LinesShown] using h

end State.LinesShown

/-- A construction drives both lines, so what was shown before does not matter. -/
theorem linesShown_construct (s : State) : (construct s).LinesShown := by
  simp [State.LinesShown, construct_eq, levelAfter_append, constructionEvents, levelAfter]

/-! ### The operations of a step -/

/-- INIT sets up the invariant on a machine with distinct pins, whatever the state before it. -/
theorem inv_construct {s : State} (hPins : s.cfg.pinsDistinct = true) : (construct s).Inv = true :=
  (inv_iff _).mpr ⟨rfl, rfl, rfl, rfl, rfl, rfl,
    historyShowsLines_of_linesShown (linesShown_construct s) nofun, hPins⟩

/-- Settles O42: the state after reset is a construction on an empty history. -/
theorem resetHasTheInvariant : Obligations.ResetHasTheInvariant := by
  intro c hPins
  exact inv_construct (s := { State.resetWith c with hist := [] }) hPins

/-- The parts of the invariant that an operation without `done` and without a new result keeps as they are; the rest is the
sequencer's. -/
theorem inv_of_sequencer_parts {s u : State} (h : s.Inv = true) (hSel : u.selectFollowsPhase = true)
    (hSeq : u.sequencerFollowsPhase = true) (hLow : u.unsampledBitsClear = true) (hHist : u.historyShowsLines = true)
    (hDone : u.done = false := by rfl) (hDir : u.directionsFixed = s.directionsFixed := by rfl)
    (hRes : u.resultConsistent = s.resultConsistent := by rfl) (hCfg : u.cfg = s.cfg := by rfl) : u.Inv = true := by
  obtain ⟨-, -, -, -, hDir', hRes', -, hPins⟩ := (inv_iff s).mp h
  exact (inv_iff u).mpr ⟨hSel, hSeq, hLow, by simp [State.doneImpliesRest, hDone], hDir.trans hDir', hRes.trans hRes',
    hHist, (congrArg Config.pinsDistinct hCfg).trans hPins⟩

section
variable {s : State}

theorem linesShown_of_inv (h : s.Inv = true) : s.LinesShown := by
  obtain ⟨-, -, -, -, -, -, hHist, -⟩ := (inv_iff s).mp h
  exact ((historyShowsLines_iff s).mp hHist).1

/-- What R42 (a) to (f) say, to be read in one phase. -/
theorem sequencerParts_of_inv (h : s.Inv = true) :
    s.selectFollowsPhase = true ∧ s.sequencerFollowsPhase = true ∧ s.unsampledBitsClear = true := by
  obtain ⟨hSel, hSeq, hLow, -⟩ := (inv_iff s).mp h
  exact ⟨hSel, hSeq, hLow⟩

theorem inv_acceptRead (h : s.Inv = true) (hPhase : s.phase = .idle) : (acceptRead s).Inv = true := by
  obtain ⟨hSel, -, -⟩ := sequencerParts_of_inv h
  rw [State.selectFollowsPhase, hPhase] at hSel
  have hShown : (acceptRead s).LinesShown := linesShown_of_inv (s := s) h
  exact inv_of_sequencer_parts h hSel rfl rfl (historyShowsLines_of_linesShown hShown nofun)

theorem inv_clearDone (h : s.Inv = true) : (clearDone s).Inv = true := by
  obtain ⟨hSel, hSeq, hLow, -, -, -, hHist, -⟩ := (inv_iff s).mp h
  exact inv_of_sequencer_parts h hSel hSeq hLow hHist

theorem inv_clkidle (h : s.Inv = true) (hPhase : s.phase = .clkidle) :
    (clearDone (setPhase .selassert (clearFrame (pinWrite .sck false s)))).Inv = true := by
  obtain ⟨hSel, -, -⟩ := sequencerParts_of_inv h
  rw [State.selectFollowsPhase, hPhase] at hSel
  exact inv_of_sequencer_parts h hSel rfl rfl
    (historyShowsLines_of_linesShown ((linesShown_of_inv h).pinWrite .sck false) nofun)

theorem inv_selassert (h : s.Inv = true) (hPhase : s.phase = .selassert) :
    (clearDone (setPhase .bitlow (waitFor .settle (pinWrite .cs false s)))).Inv = true := by
  obtain ⟨-, hSeq, -⟩ := sequencerParts_of_inv h
  simp only [State.sequencerFollowsPhase, hPhase, Bool.and_eq_true, Bool.not_eq_true', beq_iff_eq] at hSeq
  obtain ⟨⟨hSck, hFrame⟩, hIdx⟩ := hSeq
  exact inv_of_sequencer_parts h rfl
    (by simp [State.sequencerFollowsPhase, hSck, hIdx])
    (by simp [State.unsampledBitsClear, State.lowBitsClear, hFrame])
    (historyShowsLines_of_linesShown (((linesShown_of_inv h).pinWrite .cs false).waitFor .settle) nofun)

theorem inv_bitlow (h : s.Inv = true) (hPhase : s.phase = .bitlow) :
    (clearDone (setPhase .bitsample (waitFor .low (pinWrite .sck false s)))).Inv = true := by
  obtain ⟨hSel, -, hLow⟩ := sequencerParts_of_inv h
  rw [State.selectFollowsPhase, hPhase] at hSel
  rw [State.unsampledBitsClear, hPhase] at hLow
  refine inv_of_sequencer_parts h hSel rfl hLow ((historyShowsLines_iff _).mpr ⟨?shown, fun _ => ?suffix⟩)
  case shown => exact ((linesShown_of_inv h).pinWrite .sck false).waitFor .low
  case suffix => exact ⟨s.hist, by simp⟩

theorem inv_bitsample (h : s.Inv = true) (hPhase : s.phase = .bitsample) (b : Bool) :
    (clearDone (setPhase .bithigh (sampleBit b s))).Inv = true := by
  obtain ⟨hSel, hSeq, hLow⟩ := sequencerParts_of_inv h
  rw [State.selectFollowsPhase, hPhase] at hSel
  rw [State.sequencerFollowsPhase, hPhase] at hSeq
  rw [State.unsampledBitsClear, hPhase] at hLow
  have hClear : s.frame.toNat % 2 ^ (s.bitidx.toNat + 1) = 0 := by simpa [State.lowBitsClear] using hLow
  exact inv_of_sequencer_parts h hSel hSeq
    (by simpa [State.unsampledBitsClear, State.lowBitsClear] using low_bits_clear_or_bitAt b hClear)
    (historyShowsLines_of_linesShown ((linesShown_of_inv h).sampleBit b) nofun)

/-- At position 0 the loop ends, above it the next position's bits are those still clear. -/
theorem inv_bithigh (h : s.Inv = true) (hPhase : s.phase = .bithigh) :
    (clearDone (nextBit (waitFor .high (pinWrite .sck true s)))).Inv = true := by
  obtain ⟨hSel, -, hLow⟩ := sequencerParts_of_inv h
  rw [State.selectFollowsPhase, hPhase] at hSel
  rw [State.unsampledBitsClear, hPhase] at hLow
  have hShown := ((linesShown_of_inv h).pinWrite .sck true).waitFor .high
  by_cases hZero : s.bitidx = 0#5
  · rw [nextBit_at_zero (s := waitFor .high (pinWrite .sck true s)) hZero]
    exact inv_of_sequencer_parts h hSel (by simp [State.sequencerFollowsPhase, hZero]) rfl
      (historyShowsLines_of_linesShown hShown nofun)
  · rw [nextBit_above_zero (s := waitFor .high (pinWrite .sck true s)) hZero]
    have hPred := bitidx_pred_toNat hZero
    have hNotTop : s.bitidx - 1#5 ≠ 31#5 := fun hTop => by
      have := s.bitidx.isLt
      rw [hTop] at hPred
      simp at hPred
      omega
    have hLowPred : s.lowBitsClear ((s.bitidx - 1#5).toNat + 1) = true := by rw [hPred]; exact hLow
    exact inv_of_sequencer_parts h hSel (by simpa [State.sequencerFollowsPhase] using hNotTop) hLowPred
      (historyShowsLines_of_linesShown hShown nofun)

theorem inv_seldeassert (h : s.Inv = true) (hPhase : s.phase = .seldeassert) :
    (clearDone (setPhase .decode (pinWrite .cs true s))).Inv = true := by
  obtain ⟨-, hSeq, -⟩ := sequencerParts_of_inv h
  rw [State.sequencerFollowsPhase, hPhase] at hSeq
  exact inv_of_sequencer_parts h rfl hSeq rfl
    (historyShowsLines_of_linesShown ((linesShown_of_inv h).pinWrite .cs true) nofun)

/-- DECODE completes the READ with any consistent result. -/
theorem inv_completeRead (h : s.Inv = true) (hPhase : s.phase = .decode) {f : Bool} {q : Option Quarters}
    (hRes : (completeRead { s with fault := some f, tempQ := q }).resultConsistent = true) :
    (completeRead { s with fault := some f, tempQ := q }).Inv = true := by
  obtain ⟨hSel, -, -, -, hDir, -, -, hPins⟩ := (inv_iff s).mp h
  rw [State.selectFollowsPhase, hPhase] at hSel
  have hShown : (completeRead { s with fault := some f, tempQ := q }).LinesShown := linesShown_of_inv (s := s) h
  exact (inv_iff _).mpr ⟨hSel, rfl, rfl, rfl, hDir, hRes, historyShowsLines_of_linesShown hShown nofun, hPins⟩

end

/-- Settles O41: by the operation the step performs; the environment's move touches nothing of the invariant. -/
theorem everyStepKeepsTheInvariant : Obligations.EveryStepKeepsTheInvariant := by
  intro s t h hStep
  obtain ⟨u, hu, rfl⟩ := performs_of_step hStep
  rw [inv_tick]
  cases hu with
  | init _ hPins => exact inv_construct hPins
  | read _ hPhase => exact inv_acceptRead h hPhase
  | nop => exact inv_clearDone h
  | clkidle _ hPhase => exact inv_clkidle h hPhase
  | selassert _ hPhase => exact inv_selassert h hPhase
  | bitlow _ hPhase => exact inv_bitlow h hPhase
  | bitsample _ hPhase => exact inv_bitsample h hPhase s.soBit
  | bithigh _ hPhase => exact inv_bithigh h hPhase
  | seldeassert _ hPhase => exact inv_seldeassert h hPhase
  | decodeFault _ hPhase => exact inv_completeRead h hPhase rfl
  | decodeTemp _ hPhase => exact inv_completeRead h hPhase (decide_eq_true (sext_range (extractField s.frame)))

end Sys2Proof.Machine
end

section
/-! The run of one READ: its three steps up to the fall of select, the 32 bits, and its two last steps (40_commands.md R93,
41_sequencer.md R110). -/

namespace Sys2Proof.Machine

/-- One step of a run that began in `s₀`, where the script gives no INIT: the micro-operation of the phase. -/
theorem run_succ_in_phase {s₀ s u : State} {p : Phase} {n k : Nat} (hInputs : s.inputs = s₀.inputs.drop n)
    (hRst : (s₀.portAt n).rst = false) (hPhase : s.phase = p) (hExec : exec (decode (.seq p.code)) s = .next u) :
    core.run (k + 1) s = core.run k u.tick := by
  have hPort : s.port.rst = false := by rw [← portAt_zero, portAt_of_drop hInputs]; exact hRst
  exact run_succ_of_step k (by rw [step, fetch_of_phase hPort, hPhase, hExec, afterStep_next])

/-- The acceptance, CLKIDLE and SELASSERT. -/
theorem run_to_select {s : State} (hPhase : s.phase = .idle) (hStart : s.port.start = true)
    (hRst : ∀ n, n < 3 → (s.portAt n).rst = false) :
    core.run 3 s = .next
      { s with
        frame := 0#32, bitidx := 31#5, phase := .bitlow, csN := false, sck := false, done := false
        hist := s.hist ++ [.drive .sck false, .drive .cs false, .wait .settle]
        inputs := s.inputs.drop 3, freeIdx := s.freeIdx + 3 } := by
  have hIdle : execIdle s = .next (acceptRead s) := by simp [execIdle, hStart]
  rw [run_succ_in_phase rfl (hRst 0 (by omega)) hPhase hIdle,
    run_succ_in_phase (n := 1) List.drop_one.symm (hRst 1 (by omega)) rfl rfl,
    run_succ_in_phase (n := 2) (by simp [acceptRead, ← List.drop_one]) (hRst 2 (by omega)) rfl rfl]
  simp [acceptRead, clearDone, setPhase, clearFrame, pinWrite, waitFor, emit, State.tick, ← List.drop_one]

/-- BITLOW, BITSAMPLE and BITHIGH: one bit. -/
theorem run_bit {s : State} (hPhase : s.phase = .bitlow) (hRst : ∀ n, n < 3 → (s.portAt n).rst = false) :
    core.run 3 s = .next
      { s with
        frame := s.frame ||| bitAt (s.soBitAt 1) s.bitidx
        bitidx := if s.bitidx = 0#5 then s.bitidx else s.bitidx - 1#5
        phase := if s.bitidx = 0#5 then .seldeassert else .bitlow
        sck := true, done := false
        hist := s.hist ++ bitEvents s.bitidx (s.soBitAt 1)
        inputs := s.inputs.drop 3, freeIdx := s.freeIdx + 3 } := by
  have hBit : (clearDone (setPhase .bitsample (waitFor .low (pinWrite .sck false s)))).tick.soBit = s.soBitAt 1 := by
    rw [← soBitAt_zero, soBitAt_tick]
    rfl
  rw [run_succ_in_phase rfl (hRst 0 (by omega)) hPhase rfl,
    run_succ_in_phase (n := 1) List.drop_one.symm (hRst 1 (by omega)) rfl rfl,
    run_succ_in_phase (n := 2) (by simp [← List.drop_one]) (hRst 2 (by omega)) rfl rfl, hBit, nextBit_eq]
  simp [clearDone, setPhase, pinWrite, waitFor, sampleBit, emit, State.tick, bitEvents, ← List.drop_one]

/-- The frame after the positions `k - 1` down to 0 are sampled into it. -/
def sampledFrame (bits : Nat → Bool) : Nat → Word → Word
  | 0, f => f
  | k + 1, f => sampledFrame bits k (f ||| bitAt (bits k) (BitVec.ofNat 5 k))

theorem getLsbD_sampledFrame (bits : Nat → Bool) {k : Nat} (hk : k ≤ 32) (f : Word) (i : Nat) :
    (sampledFrame bits k f).getLsbD i = (f.getLsbD i || (decide (i < k) && bits i)) := by
  induction k generalizing f with
  | zero => simp [sampledFrame]
  | succ k ih =>
    have hToNat : (BitVec.ofNat 5 k).toNat = k := by simp; omega
    rw [sampledFrame, ih (by omega), BitVec.getLsbD_or, getLsbD_bitAt, hToNat]
    by_cases hi : i = k
    · simp [hi]
    · have hlt : i < k + 1 ↔ i < k := by omega
      simp [hi, hlt]

theorem ofNat_succ_ne_zero {k : Nat} (hk : k + 1 < 32) : BitVec.ofNat 5 (k + 1) ≠ 0#5 := fun h => by
  have := congrArg BitVec.toNat h
  simp at this
  omega

theorem ofNat_succ_sub_one (k : Nat) : BitVec.ofNat 5 (k + 1) - 1#5 = BitVec.ofNat 5 k := by
  rw [BitVec.ofNat_add, BitVec.add_sub_cancel]

/-- The loop over the positions `k` down to 0. -/
theorem run_bits {bits : Nat → Bool} {k : Nat} (hk : k < 32) {s : State} (hPhase : s.phase = .bitlow)
    (hIdx : s.bitidx = BitVec.ofNat 5 k) (hRst : ∀ n, n < 3 * (k + 1) → (s.portAt n).rst = false)
    (hBits : ∀ i, i ≤ k → s.soBitAt (1 + 3 * (k - i)) = bits i) :
    core.run (3 * (k + 1)) s = .next
      { s with
        frame := sampledFrame bits (k + 1) s.frame, bitidx := 0#5, phase := .seldeassert, sck := true, done := false
        hist := s.hist ++ bitsEvents bits (k + 1)
        inputs := s.inputs.drop (3 * (k + 1)), freeIdx := s.freeIdx + 3 * (k + 1) } := by
  induction k generalizing s with
  | zero =>
    have hFirst := run_bit hPhase hRst
    rw [hIdx, show s.soBitAt 1 = bits 0 from hBits 0 le_rfl] at hFirst
    simpa [hIdx, sampledFrame, bitsEvents] using hFirst
  | succ k ih =>
    have hFirst := run_bit hPhase fun n hn => hRst n (by omega)
    have hBit : s.soBitAt 1 = bits (k + 1) := by simpa using hBits (k + 1) le_rfl
    have hNotZero : BitVec.ofNat 5 (k + 1) ≠ 0#5 := ofNat_succ_ne_zero hk
    rw [hIdx, hBit, if_neg hNotZero, if_neg hNotZero, ofNat_succ_sub_one] at hFirst
    rw [show 3 * (k + 1 + 1) = 3 + 3 * (k + 1) by omega, run_add 3 _ hFirst, ih (by omega) rfl rfl ?rst ?bits]
    case rst =>
      intro n hn
      rw [portAt_of_drop rfl]
      exact hRst (3 + n) (by omega)
    case bits =>
      intro i hi
      rw [soBitAt_of_drop rfl rfl, show 3 + (1 + 3 * (k - i)) = 1 + 3 * (k + 1 - i) by omega]
      exact hBits i (by omega)
    simp [sampledFrame, bitsEvents, Nat.add_assoc]

/-- SELDEASSERT and DECODE. -/
theorem run_from_last_bit {s : State} (hPhase : s.phase = .seldeassert)
    (hRst : ∀ n, n < 2 → (s.portAt n).rst = false) :
    core.run 2 s = .next
      { s with
        phase := .idle, csN := true, valid := true, done := true
        fault := some (faultChk s.frame)
        tempQ := if faultChk s.frame = true then none else some (sext (extractField s.frame))
        hist := s.hist ++ [.drive .cs true]
        inputs := s.inputs.drop 2, freeIdx := s.freeIdx + 2 } := by
  rw [run_succ_in_phase rfl (hRst 0 (by omega)) hPhase rfl,
    run_succ_in_phase (n := 1) List.drop_one.symm (hRst 1 (by omega)) rfl rfl]
  cases h : faultChk s.frame <;>
    simp [h, clearDone, setPhase, pinWrite, emit, reportFault, reportTemp, completeRead, State.tick, ← List.drop_one]

/-- The whole effect of one READ given at rest (40_commands.md R93). -/
theorem run_read {s : State} (h : s.commandsRead) :
    core.run 101 s = .next
      { s with
        frame := sampledFrame s.bitOfRead 32 0#32, bitidx := 0#5, phase := .idle, csN := true, sck := true
        valid := true, done := true
        fault := some (faultChk (sampledFrame s.bitOfRead 32 0#32))
        tempQ := if faultChk (sampledFrame s.bitOfRead 32 0#32) = true then none
          else some (sext (extractField (sampledFrame s.bitOfRead 32 0#32)))
        hist := s.hist ++ readEvents s.bitOfRead
        inputs := s.inputs.drop 101, freeIdx := s.freeIdx + 101 } := by
  obtain ⟨hPhase, hStart, hRst⟩ := h
  rw [show 101 = 3 + (3 * (31 + 1) + 2) from rfl,
    run_add 3 _ (run_to_select hPhase hStart fun n hn => hRst n (by omega)),
    run_add _ 2 (run_bits (bits := s.bitOfRead) (by decide) rfl rfl ?rstInBits ?bits),
    run_from_last_bit rfl ?rstAtEnd]
  case rstInBits =>
    intro n hn
    rw [portAt_of_drop rfl]
    exact hRst (3 + n) (by omega)
  case bits =>
    intro i hi
    rw [soBitAt_of_drop rfl rfl, State.bitOfRead, ← Nat.add_assoc]
  case rstAtEnd =>
    intro n hn
    rw [portAt_of_drop (s := s) (k := 99) (by simp)]
    exact hRst (99 + n) (by omega)
  simp [readEvents]

end Sys2Proof.Machine
end

section
/-! The 164 events of one READ: counts, levels and order, bit by bit (41_sequencer.md R109). -/

namespace Sys2Proof.Machine

/-! ### A history in two pieces -/

theorem transitionsTo_append (l : OutLine) (lvl v : Bool) (a b : List Event) :
    transitionsTo l lvl v (a ++ b) = transitionsTo l lvl v a + transitionsTo l lvl (levelAfter l v a) b := by
  induction a generalizing v with
  | nil => simp [transitionsTo, levelAfter]
  | cons e a ih =>
    cases e with
    | drive l' w =>
      by_cases hl : l' = l
      · simp [transitionsTo, levelAfter, hl, ih, Nat.add_assoc]
      · simp [transitionsTo, levelAfter, hl, ih]
    | dir | wait | sample => exact ih v

theorem samplePositions_append (a b : List Event) :
    samplePositions (a ++ b) = samplePositions a ++ samplePositions b := by
  induction a with
  | nil => rfl
  | cons e a ih => cases e <;> simp [samplePositions, ih]

theorem withLevels_append (cs sck : Bool) (a b : List Event) :
    withLevels cs sck (a ++ b) = withLevels cs sck a ++ withLevels (levelAfter .cs cs a) (levelAfter .sck sck a) b := by
  induction a generalizing cs sck with
  | nil => rfl
  | cons e a ih => simp [withLevels, ih, ← levelAfter_append]

/-! ### The bits of a READ -/

theorem length_bitsEvents (bits : Nat → Bool) (k : Nat) : (bitsEvents bits k).length = 5 * k := by
  induction k with
  | zero => rfl
  | succ k ih => simp [bitsEvents, bitEvents, ih]; omega

@[simp] theorem levelAfter_cs_bitsEvents (v : Bool) (bits : Nat → Bool) (k : Nat) :
    levelAfter .cs v (bitsEvents bits k) = v := by
  induction k with
  | zero => rfl
  | succ k ih => simpa [bitsEvents, bitEvents, levelAfter] using ih

/-- Each bit has its rising edge, whatever the level before it. -/
@[simp] theorem transitionsTo_high_bitsEvents (v : Bool) (bits : Nat → Bool) (k : Nat) :
    transitionsTo .sck true v (bitsEvents bits k) = k := by
  induction k generalizing v with
  | zero => rfl
  | succ k ih => simp [bitsEvents, bitEvents, transitionsTo, ih]; omega

/-- From a low clock every bit but the first has a falling edge. -/
@[simp] theorem transitionsTo_low_bitsEvents (v : Bool) (bits : Nat → Bool) (k : Nat) :
    transitionsTo .sck false v (bitsEvents bits (k + 1)) = k + if v = true then 1 else 0 := by
  induction k generalizing v with
  | zero => cases v <;> rfl
  | succ k ih =>
    rw [bitsEvents, transitionsTo_append, ih]
    cases v <;> simp [bitEvents, transitionsTo, levelAfter]; omega

@[simp] theorem transitionsTo_cs_bitsEvents (lvl v : Bool) (bits : Nat → Bool) (k : Nat) :
    transitionsTo .cs lvl v (bitsEvents bits k) = 0 := by
  induction k with
  | zero => rfl
  | succ k ih => simpa [bitsEvents, bitEvents, transitionsTo] using ih

theorem samplePositions_bitsEvents (bits : Nat → Bool) {k : Nat} (hk : k ≤ 32) :
    samplePositions (bitsEvents bits k) = (List.range k).reverse := by
  induction k with
  | zero => rfl
  | succ k ih =>
    have hToNat : (BitVec.ofNat 5 k).toNat = k := by simp; omega
    rw [bitsEvents, samplePositions_append, ih (by omega), List.range_succ, List.reverse_append]
    simp [bitEvents, samplePositions, hToNat]

/-! ### Where the samples stand -/

/-- Every sample of a list is taken with select and clock low, and is the bit drawn for its position. -/
def SamplesLow (bits : Nat → Bool) (cs sck : Bool) (es : List Event) : Prop :=
  ∀ x ∈ withLevels cs sck es, ∀ i b, x.2.2 = Event.sample i b → x.1 = false ∧ x.2.1 = false ∧ b = bits i.toNat

theorem SamplesLow.append {bits : Nat → Bool} {cs sck : Bool} {a b : List Event} (ha : SamplesLow bits cs sck a)
    (hb : SamplesLow bits (levelAfter .cs cs a) (levelAfter .sck sck a) b) : SamplesLow bits cs sck (a ++ b) := by
  intro x hx
  rw [withLevels_append, List.mem_append] at hx
  exact hx.elim (ha x) (hb x)

theorem samplesLow_bitEvents {bits : Nat → Bool} (sck : Bool) {i : BitIdx} {b : Bool} (hb : b = bits i.toNat) :
    SamplesLow bits false sck (bitEvents i b) := by
  intro x hx j b' hSample
  have hOnly : x = (false, false, Event.sample i b) := by
    simp only [bitEvents, withLevels, levelAfter, List.mem_cons, List.not_mem_nil, or_false] at hx
    obtain rfl | rfl | rfl | rfl | rfl := hx
    case inr.inr.inl => rfl
    all_goals cases hSample
  subst hOnly
  cases hSample
  exact ⟨rfl, rfl, hb⟩

theorem samplesLow_bitsEvents (bits : Nat → Bool) (sck : Bool) {k : Nat} (hk : k ≤ 32) :
    SamplesLow bits false sck (bitsEvents bits k) := by
  induction k generalizing sck with
  | zero => simp [SamplesLow, bitsEvents, withLevels]
  | succ k ih =>
    have hToNat : (BitVec.ofNat 5 k).toNat = k := by simp; omega
    exact (samplesLow_bitEvents sck (congrArg bits hToNat.symm)).append (ih _ (by omega))

/-- Right before every sample of a list stand the drive and the wait of BITLOW. -/
def SamplesAfterLow (es : List Event) : Prop :=
  ∀ before i b after, es = before ++ Event.sample i b :: after → [Event.drive .sck false, Event.wait .low] <:+ before

theorem samplesAfterLow_of_no_sample {es : List Event} (h : ∀ i b, Event.sample i b ∉ es) : SamplesAfterLow es := by
  rintro before i b after rfl
  exact absurd (by simp) (h i b)

theorem SamplesAfterLow.append {xs ys : List Event} (hx : SamplesAfterLow xs) (hy : SamplesAfterLow ys) :
    SamplesAfterLow (xs ++ ys) := by
  intro before i b after h
  obtain ⟨c, hBefore, hc⟩ | ⟨c, hc, hc'⟩ := List.append_eq_append_iff.mp h
  · exact (hy c i b after hc).trans (hBefore ▸ List.suffix_append xs c)
  · cases c with
    | nil => simpa [← hc] using hy [] i b after (by simpa using hc'.symm)
    | cons e c =>
      obtain ⟨rfl, -⟩ := List.cons.inj hc'
      exact hx before i b c hc

theorem samplesAfterLow_bitEvents (i : BitIdx) (b : Bool) : SamplesAfterLow (bitEvents i b) := by
  intro before j b' after h
  match before with
  | [] => simp [bitEvents] at h
  | [_] => simp [bitEvents] at h
  | [_, _] => simp_all [bitEvents]
  | [_, _, _] => simp [bitEvents] at h
  | [_, _, _, _] => simp [bitEvents] at h
  | _ :: _ :: _ :: _ :: _ :: _ => simp [bitEvents] at h

theorem samplesAfterLow_bitsEvents (bits : Nat → Bool) (k : Nat) : SamplesAfterLow (bitsEvents bits k) := by
  induction k with
  | zero => exact samplesAfterLow_of_no_sample (by simp [bitsEvents])
  | succ k ih => exact (samplesAfterLow_bitEvents _ _).append ih

/-! ### One whole READ -/

theorem samplesLow_readEvents (bits : Nat → Bool) (cs sck : Bool) : SamplesLow bits cs sck (readEvents bits) := by
  have hStart : SamplesLow bits cs sck [.drive .sck false, .drive .cs false, .wait .settle] := by
    simp [SamplesLow, withLevels]
  have hEnd (cs sck : Bool) : SamplesLow bits cs sck [.drive .cs true] := by simp [SamplesLow, withLevels]
  exact (hStart.append (samplesLow_bitsEvents bits false le_rfl)).append (hEnd _ _)

theorem samplesAfterLow_readEvents (bits : Nat → Bool) : SamplesAfterLow (readEvents bits) :=
  ((samplesAfterLow_of_no_sample (by simp)).append (samplesAfterLow_bitsEvents bits 32)).append
    (samplesAfterLow_of_no_sample (by simp))

/-- The events up to the first sample. -/
theorem take_readEvents (bits : Nat → Bool) :
    (readEvents bits).take 6 = [.drive .sck false, .drive .cs false, .wait .settle, .drive .sck false, .wait .low,
      .sample 31#5 (bits 31)] :=
  rfl

/-- Settles O48: the READ adds `readEvents` (`run_read`), whose counts and order are those of its 32 bits between the fall
and the rise of select. -/
theorem readIsOrderedOnTheLines : Obligations.ReadIsOrderedOnTheLines := by
  intro s hRead hCs
  refine ⟨_, readEvents s.bitOfRead, run_read hRead, rfl, ?length, ?rises, ?falls, ?csFalls, ?csRises, ?positions,
    samplesLow_readEvents s.bitOfRead s.csN s.sck, samplesAfterLow_readEvents s.bitOfRead, take_readEvents s.bitOfRead⟩
  case length => simp [readEvents, length_bitsEvents]
  case rises => simp [readEvents, transitionsTo, transitionsTo_append]
  case falls => simp [readEvents, transitionsTo, transitionsTo_append]; omega
  case csFalls => simp [readEvents, transitionsTo, transitionsTo_append, hCs]
  case csRises => simp [readEvents, transitionsTo, transitionsTo_append, hCs]
  case positions =>
    simp [readEvents, samplePositions, samplePositions_append, samplePositions_bitsEvents s.bitOfRead le_rfl]

end Sys2Proof.Machine
end

section
/-! A device that presents a frame: the bits a READ draws from it, and the frame and reading it ends with (20_memory.md R51,
30_encoding.md R76). -/

namespace Sys2Proof.Machine

/-! ### The frame received -/

/-- Sampled into an empty frame, each of the 32 bits stands at its position. -/
theorem getLsbD_sampledFrame_of_lt (bits : Nat → Bool) {i : Nat} (hi : i < 32) :
    (sampledFrame bits 32 0#32).getLsbD i = bits i := by
  rw [getLsbD_sampledFrame bits le_rfl]
  simp [hi]

theorem sampledFrame_eq {bits : Nat → Bool} {f : Word} (h : ∀ i, i < 32 → bits i = f.getLsbD i) :
    sampledFrame bits 32 0#32 = f :=
  BitVec.eq_of_getLsbD_eq fun i hi => (getLsbD_sampledFrame_of_lt bits hi).trans (h i hi)

/-- Result registers that hold the verdict on a frame read as its decode (42_decoder.md R129). -/
theorem reading_of_verdict {s : State} {f : Word} (hValid : s.valid = true) (hFault : s.fault = some (faultChk f))
    (hTemp : s.tempQ = if faultChk f = true then none else some (sext (extractField f))) :
    s.reading = some (decodeReading f) := by
  cases hChk : faultChk f with
  | true => simpa [decodeReading, hChk] using reading_of_fault hValid (hFault.trans (congrArg some hChk))
  | false =>
    rw [hChk] at hFault hTemp
    simpa [decodeReading, hChk] using reading_of_temp hValid hFault hTemp

/-- The state in which one READ ends, `f` being the frame received (40_commands.md R93). -/
def State.afterRead (s : State) (f : Word) : State :=
  { s with
    frame := f, bitidx := 0#5, phase := .idle, csN := true, sck := true, valid := true, done := true
    fault := some (faultChk f)
    tempQ := if faultChk f = true then none else some (sext (extractField f))
    hist := s.hist ++ readEvents s.bitOfRead
    inputs := s.inputs.drop 101, freeIdx := s.freeIdx + 101 }

theorem run_read_eq_afterRead {s : State} (h : s.commandsRead) :
    core.run 101 s = .next (s.afterRead (sampledFrame s.bitOfRead 32 0#32)) :=
  run_read h

theorem reading_afterRead (s : State) (f : Word) : (s.afterRead f).reading = some (decodeReading f) :=
  reading_of_verdict rfl rfl rfl

/-- Settles O44: the frame of `run_read` is the one sampled into an empty word. -/
theorem readHasItsWholeEffect : Obligations.ReadHasItsWholeEffect := by
  intro s hRead
  exact ⟨sampledFrame s.bitOfRead 32 0#32, fun i hi => getLsbD_sampledFrame_of_lt s.bitOfRead hi,
    run_read_eq_afterRead hRead⟩

/-! ### A device that sends a frame -/

theorem soBitAt_of_driven {s : State} {n : Nat} {b : Bool} (h : (s.portAt n).so = some b) : s.soBitAt n = b := by
  simp [State.soBitAt, h]

theorem getElem?_serialStream (f : Word) {k : Nat} (hk : k < 32) :
    (serialStream f)[k]? = some (f.getLsbD (31 - k)) := by
  simp [serialStream, hk]

/-- During a READ accepted now the device presents `f`, most significant bit first. -/
def State.Presents (s : State) (f : Word) : Prop :=
  ∀ k, k < 32 → (s.portAt (4 + 3 * k)).so = (serialStream f)[k]?

theorem State.Presents.bitOfRead {s : State} {f : Word} (h : s.Presents f) {i : Nat} (hi : i < 32) :
    s.bitOfRead i = f.getLsbD i := by
  have hSent : (s.portAt (4 + 3 * (31 - i))).so = some (f.getLsbD (31 - (31 - i))) :=
    (h (31 - i) (by omega)).trans (getElem?_serialStream f (by omega))
  rw [State.bitOfRead, soBitAt_of_driven hSent, show 31 - (31 - i) = i by omega]

theorem length_readInputs (f : Word) : (readInputs f).length = 101 := by simp [readInputs]

theorem portAt_of_readInputs {s : State} {f : Word} {rest : List PortIn} (h : s.inputs = readInputs f ++ rest) {n : Nat}
    (hn : n < 101) :
    s.portAt n = ⟨false, n == 0, if 4 ≤ n ∧ n % 3 = 1 then (serialStream f)[(n - 4) / 3]? else none⟩ := by
  rw [State.portAt, h, List.getD_append _ _ _ _ (by rwa [length_readInputs])]
  simp [readInputs, List.getD_eq_getElem?_getD, hn]

theorem commandsRead_of_readInputs {s : State} {f : Word} {rest : List PortIn} (hPhase : s.phase = .idle)
    (h : s.inputs = readInputs f ++ rest) : s.commandsRead := by
  refine ⟨hPhase, ?start, fun n hn => by rw [portAt_of_readInputs h hn]⟩
  case start => rw [← portAt_zero, portAt_of_readInputs h (by decide)]; rfl

theorem presents_of_readInputs {s : State} {f : Word} {rest : List PortIn} (h : s.inputs = readInputs f ++ rest) :
    s.Presents f := by
  intro k hk
  have hIndex : (4 + 3 * k - 4) / 3 = k := by omega
  have hSampled : 4 ≤ 4 + 3 * k ∧ (4 + 3 * k) % 3 = 1 := by omega
  rw [portAt_of_readInputs h (by omega), if_pos hSampled, hIndex]

/-- Settles O45: the script commands a READ and presents `f`, so the 32 bits drawn are those of `f`. -/
theorem presentedFrameIsDelivered : Obligations.PresentedFrameIsDelivered := by
  intro s f rest hPhase hInputs
  have hFrame : sampledFrame s.bitOfRead 32 0#32 = f :=
    sampledFrame_eq fun i hi => (presents_of_readInputs hInputs).bitOfRead hi
  have hRun : core.run 101 s = .next (s.afterRead f) :=
    hFrame ▸ run_read_eq_afterRead (commandsRead_of_readInputs hPhase hInputs)
  have hRest : s.inputs.drop 101 = rest := by simp [hInputs, ← length_readInputs f]
  exact ⟨s.afterRead f, hRun, rfl, reading_afterRead s f, rfl, hRest⟩

end Sys2Proof.Machine
end

section
/-! The host's call as a run: a script of NOPs in place of the host's port, under which `nopUntilDone` is `core.run`
(30_encoding.md R82). -/

namespace Sys2Proof.Machine

/-! ### The environment's script in a step -/

/-- The state with another script of input levels. -/
def State.withInputs (s : State) (ins : List PortIn) : State := { s with inputs := ins }

/-- An operation sees no more of the script than the present levels. -/
theorem exec_withInputs {i : Instr} {s u : State} {ins : List PortIn} (hPort : (s.withInputs ins).port = s.port)
    (h : exec i s = .next u) : exec i (s.withInputs ins) = .next (u.withInputs ins) := by
  cases i with
  | init st =>
    obtain ⟨hPins, rfl⟩ := execInit_eq_next (st := st) h
    exact execInit_of_distinct (s := s.withInputs ins) st hPins
  | idle =>
    obtain rfl := Host.Outcome.next.inj h
    simp only [exec, execIdle, hPort]
    cases s.port.start <;> rfl
  | bitsample =>
    obtain rfl := Host.Outcome.next.inj h
    have hBit : (s.withInputs ins).soBit = s.soBit := by simp only [State.soBit, hPort]; rfl
    simp only [exec, execBitsample, hBit]
    rfl
  | bithigh =>
    obtain rfl := Host.Outcome.next.inj h
    simp only [exec, execBithigh, nextBit_eq]
    rfl
  | decode =>
    obtain rfl := Host.Outcome.next.inj h
    rw [apply_ite (State.withInputs · ins)]
    rfl
  | read | nop | clkidle | selassert | bitlow | seldeassert | frameTemp | frameFaultXx1 | frameFaultX10 | frameFault100 =>
    obtain rfl := Host.Outcome.next.inj h
    rfl

theorem step_withInputs {s t : State} {ins : List PortIn} (hPort : (s.withInputs ins).port = s.port)
    (h : step s = .next t) : step (s.withInputs ins) = .next (t.withInputs ins.tail) := by
  obtain ⟨u, hu, rfl⟩ := step_eq_next h
  have hFetch : (s.withInputs ins).fetch = s.fetch := fetch_congr (by rw [hPort]) (by rw [hPort]) rfl
  rw [step, hFetch, exec_withInputs hPort hu]
  rfl

theorem step_inputs {s t : State} (h : step s = .next t) : t.inputs = s.inputs.tail := by
  obtain ⟨u, hu, rfl⟩ := step_eq_next h
  obtain ⟨-, -, -, -, -, -, -, -, -, -, hInputs, -⟩ := operationsWriteOnlyTheirRegisters _ _ _ hu
  rw [tick_inputs, hInputs]

/-- Only INIT can be refused. -/
theorem exists_step_of_no_rst {s : State} (h : s.port.rst = false) : ∃ t, step s = .next t := by
  obtain ⟨hRst, -⟩ | ⟨-, ⟨-, he⟩ | ⟨-, he⟩ | ⟨-, he⟩ | ⟨-, he⟩ | ⟨-, he⟩ | ⟨-, he⟩ | ⟨-, he⟩ | ⟨-, he⟩⟩ := step_cases s
  · simp [h] at hRst
  all_goals exact ⟨_, he⟩

/-! ### A host that gives NOPs -/

/-- The script in which the host gives `k` NOPs, the device's levels as they were. -/
def nopScript : Nat → List PortIn → List PortIn
  | 0, ins => ins
  | k + 1, ins => ⟨false, false, (ins.headD PortIn.quiet).so⟩ :: nopScript k ins.tail

theorem drop_nopScript (k : Nat) (ins : List PortIn) : (nopScript k ins).drop k = ins.drop k := by
  induction k generalizing ins with
  | zero => rfl
  | succ k ih => simp [nopScript, ih]

theorem getD_nopScript {k n : Nat} (hn : n < k) (ins : List PortIn) :
    (nopScript k ins).getD n PortIn.quiet = ⟨false, false, (ins.getD n PortIn.quiet).so⟩ := by
  induction k generalizing n ins with
  | zero => omega
  | succ k ih =>
    cases n with
    | zero => cases ins <;> rfl
    | succ n => simpa [nopScript, List.getD_eq_getElem?_getD] using ih (n := n) (by omega) ins.tail

/-- The host gives NOPs in this step and the next ones, `k` in all. -/
def State.underNops (s : State) (k : Nat) : State := s.withInputs (nopScript k s.inputs)

/-- One NOP given by the host is one step under the script of NOPs. -/
theorem step_underNops {s t : State} (k : Nat) (h : step (s.commanding false) = .next t) :
    step (s.underNops (k + 1)) = .next (t.underNops k) := by
  have hTail : t.inputs = s.inputs.tail := step_inputs (s := s.commanding false) h
  rw [State.underNops, State.underNops, hTail]
  exact step_withInputs (s := s.commanding false) rfl h

theorem run_succ_underNops {s t : State} (k : Nat) (h : step (s.commanding false) = .next t) :
    core.run (k + 1) (s.underNops (k + 1)) = core.run k (t.underNops k) :=
  run_succ_of_step k (step_underNops k h)

/-- NOPs at rest leave `done` clear. -/
theorem done_eq_false_of_nops_at_rest {k : Nat} {s t : State} (hPhase : s.phase = .idle)
    (h : core.run (k + 1) (s.underNops (k + 1)) = .next t) : t.done = false := by
  have hNop : step (s.commanding false) = .next (clearDone (s.commanding false)).tick := by
    rw [step_commanding, hPhase]
    rfl
  rw [run_succ_underNops k hNop] at h
  cases k with
  | zero => cases h; rfl
  | succ k => exact done_eq_false_of_nops_at_rest (s := (clearDone (s.commanding false)).tick) hPhase h

/-- A step that sets `done` ends at rest. -/
theorem phase_eq_idle_of_done {s t : State} (h : step s = .next t) (hDone : t.done = true) : t.phase = .idle := by
  obtain ⟨u, hu, rfl⟩ := performs_of_step h
  obtain ⟨-, rfl⟩ | ⟨-, -, rfl⟩ | ⟨-, -, hNotDone, -⟩ := resultRegisters_of_performs hu
  · rfl
  · cases faultChk s.frame <;> rfl
  · simp [hNotDone] at hDone

/-- A run of NOPs that ends with `done` is a call that ends there: `done` cannot have been set earlier, for NOPs at rest
would have cleared it. -/
theorem nopUntilDone_eq_run {k : Nat} {s t : State} (h : core.run (k + 1) (s.underNops (k + 1)) = .next t)
    (hDone : t.done = true) : nopUntilDone (k + 1) s = some t := by
  induction k generalizing s with
  | zero =>
    obtain ⟨u, hu⟩ := exists_step_of_no_rst (s := s.commanding false) rfl
    rw [run_succ_underNops 0 hu] at h
    cases h
    exact nopUntilDone_of_done 0 hu hDone
  | succ k ih =>
    obtain ⟨u, hu⟩ := exists_step_of_no_rst (s := s.commanding false) rfl
    rw [run_succ_underNops (k + 1) hu] at h
    cases hEarly : u.done with
    | false => rw [nopUntilDone_of_not_done _ hu hEarly, ih h]
    | true => simp [done_eq_false_of_nops_at_rest (phase_eq_idle_of_done hu hEarly) h] at hDone

/-! ### The call -/

/-- The host commands a READ and then gives 100 NOPs. -/
def State.underCall (s : State) : State :=
  s.withInputs (⟨false, true, s.port.so⟩ :: nopScript 100 s.inputs.tail)

theorem portAt_underCall (s : State) {n : Nat} (hn : n < 101) :
    s.underCall.portAt n = ⟨false, n == 0, (s.portAt n).so⟩ := by
  cases n with
  | zero => rw [portAt_zero s]; rfl
  | succ n =>
    have hNop := getD_nopScript (k := 100) (n := n) (by omega) s.inputs.tail
    rw [← portAt_tick s]
    simpa [State.portAt, State.underCall, State.withInputs] using hNop

theorem commandsRead_underCall {s : State} (h : s.phase = .idle) : s.underCall.commandsRead :=
  ⟨h, rfl, fun n hn => by rw [portAt_underCall s hn]⟩

/-- The call draws the bits the device presents to the caller's script. -/
theorem bitOfRead_underCall (s : State) : s.underCall.bitOfRead = s.bitOfRead := by
  funext i
  simp only [State.bitOfRead, State.soBitAt, portAt_underCall s (show 4 + 3 * (31 - i) < 101 by omega)]
  rfl

/-- A call at rest is the run of one READ. -/
theorem callRead_eq_run {s t : State} (hPhase : s.phase = .idle) (h : core.run 101 s.underCall = .next t)
    (hDone : t.done = true) : callRead s = some t := by
  have hAccept := step_withInputs (s := s.commanding true)
    (ins := ⟨false, true, s.port.so⟩ :: nopScript 100 s.inputs.tail) rfl (step_commanding_read hPhase)
  rw [callRead_of_idle hPhase]
  exact nopUntilDone_eq_run ((run_succ_of_step 100 hAccept).symm.trans h) hDone

/-- A call at rest ends as one whole READ does, with the caller's script behind it. -/
theorem callRead_at_rest {s : State} (hPhase : s.phase = .idle) :
    callRead s = some (s.afterRead (sampledFrame s.bitOfRead 32 0#32)) := by
  have hInputs : s.underCall.inputs.drop 101 = s.inputs.drop 101 := by
    simp [State.underCall, State.withInputs, drop_nopScript]
  have hEnd (f : Word) : s.underCall.afterRead f = s.afterRead f := by
    rw [State.afterRead, bitOfRead_underCall, hInputs]
    rfl
  have hRun := run_read_eq_afterRead (commandsRead_underCall hPhase)
  rw [bitOfRead_underCall, hEnd] at hRun
  exact callRead_eq_run hPhase hRun rfl

theorem readTemperature_at_rest {s : State} (hPhase : s.phase = .idle) :
    readTemperature s = some (decodeReading (sampledFrame s.bitOfRead 32 0#32)) := by
  rw [readTemperature, callRead_at_rest hPhase]
  exact reading_afterRead s _

/-- Settles O46: a call at rest is the run of one READ (`callRead_at_rest`), and there is none while the block is busy. -/
theorem readTemperatureReturnsTheDecodedFrame : Obligations.ReadTemperatureReturnsTheDecodedFrame := by
  intro s
  refine ⟨fun hPhase => ?atRest, fun f hPhase hPresents => ?presented, fun hBusy => ?busy⟩
  case atRest =>
    exact ⟨sampledFrame s.bitOfRead 32 0#32, fun i hi => getLsbD_sampledFrame_of_lt s.bitOfRead hi,
      callRead_at_rest hPhase, readTemperature_at_rest hPhase⟩
  case presented =>
    have hPresents : s.Presents f := hPresents
    rw [readTemperature_at_rest hPhase, sampledFrame_eq fun i hi => hPresents.bitOfRead hi]
  case busy => rw [readTemperature, callRead_of_busy hBusy, Option.bind_none]

end Sys2Proof.Machine
end

section
/-! The encoding: decoder and encoder undo each other, the opcode table's rows partition the patterns, and a pattern is
its number (30_encoding.md R70 to R83). -/

namespace Sys2Proof

open Sys2Proof.Machine

/-- Settles O2: the operands of a CMD or SEQ pattern are its own bits; a frame class is decoded from its fields
(`decodeFrame_frameOf`), where the fixed fault bits of a well-formed instruction pick its class. -/
theorem decodeOfEncodeIsTheInstruction : Obligations.DecodeOfEncodeIsTheInstruction := by
  intro i hWf
  cases i with
  | init start => cases start <;> rfl
  | read => rfl
  | nop => rfl
  | idle => rfl
  | clkidle => rfl
  | selassert => rfl
  | bitlow => rfl
  | bitsample => rfl
  | bithigh => rfl
  | seldeassert => rfl
  | decode => rfl
  | frameTemp t g => exact decodeFrame_frameOf t g 0b000#3
  | frameFaultXx1 t g b =>
    have hBit : b.getLsbD 0 = true := hWf
    exact (decodeFrame_frameOf t g b).trans (if_pos hBit)
  | frameFaultX10 t g b =>
    obtain ⟨hBit0, hBit1⟩ : b.getLsbD 0 = false ∧ b.getLsbD 1 = true := by simpa [Instr.WellFormed] using hWf
    refine (decodeFrame_frameOf t g b).trans ?_
    simp only [hBit0, hBit1, Bool.false_eq_true, if_false, if_true]
  | frameFault100 t g => exact decodeFrame_frameOf t g 0b100#3

/-- The class of a frame fixes the fault bits that its instruction does not carry as an operand. -/
theorem decodeFrame_wellFormed_and_encode (f : Word) :
    (decodeFrame f).WellFormed = true ∧ encode (decodeFrame f) = .frame f := by
  cases f using forall_frame with | h t g b
  rw [decodeFrame_frameOf]
  cases hBit0 : b.getLsbD 0 with
  | true => exact ⟨hBit0, rfl⟩
  | false =>
    cases hBit1 : b.getLsbD 1 with
    | true =>
      have hWf : (!b.getLsbD 0 && b.getLsbD 1) = true := by rw [hBit0, hBit1]; rfl
      exact ⟨hWf, rfl⟩
    | false =>
      cases hBit2 : b.getLsbD 2 with
      | true =>
        have hBits : b = 0b100#3 := by revert b; decide
        subst hBits
        exact ⟨rfl, rfl⟩
      | false =>
        have hBits : b = 0b000#3 := by revert b; decide
        subst hBits
        exact ⟨rfl, rfl⟩

/-- Settles O3: the CMD and SEQ patterns one by one, a frame by its fields. -/
theorem encodeOfDecodeIsThePattern : Obligations.EncodeOfDecodeIsThePattern := by
  intro p
  cases p with
  | cmd p => revert p; decide
  | seq p => revert p; decide
  | frame f => exact decodeFrame_wellFormed_and_encode f

/-- The encoding of a well-formed instruction fits exactly the row that bears its mnemonic (30_encoding.md R83). -/
theorem fits_encode_eq_mnemonic (i : Instr) : Laws.EncodingFitsItsRow.Statement i := by
  cases i with
  | init start => exact Laws.EncodingFitsItsRow.init start
  | read => exact Laws.EncodingFitsItsRow.read
  | nop => exact Laws.EncodingFitsItsRow.nop
  | idle => exact Laws.EncodingFitsItsRow.idle
  | clkidle => exact Laws.EncodingFitsItsRow.clkidle
  | selassert => exact Laws.EncodingFitsItsRow.selassert
  | bitlow => exact Laws.EncodingFitsItsRow.bitlow
  | bitsample => exact Laws.EncodingFitsItsRow.bitsample
  | bithigh => exact Laws.EncodingFitsItsRow.bithigh
  | seldeassert => exact Laws.EncodingFitsItsRow.seldeassert
  | decode => exact Laws.EncodingFitsItsRow.decode
  | frameTemp t g => exact Laws.EncodingFitsItsRow.frameTemp t g
  | frameFaultXx1 t g b => exact Laws.EncodingFitsItsRow.frameFaultXx1 t g b
  | frameFaultX10 t g b => exact Laws.EncodingFitsItsRow.frameFaultX10 t g b
  | frameFault100 t g => exact Laws.EncodingFitsItsRow.frameFault100 t g

/-- Every instruction has one row in the opcode table. -/
theorem rows_with_mnemonic (i : Instr) :
    (opcodeTable.filter (fun r => r.mnemonic == i.mnemonic)).map Row.mnemonic = [i.mnemonic] := by
  cases i <;> rfl

/-- Settles O4: a pattern is the encoding of the well-formed instruction it decodes to (O3), and that encoding fits the
row of its mnemonic alone. -/
theorem exactlyOneTableRowFitsEveryPattern : Obligations.ExactlyOneTableRowFitsEveryPattern := by
  intro p
  obtain ⟨hWf, hEncode⟩ := encodeOfDecodeIsThePattern p
  have hFits : ∀ r ∈ opcodeTable, r.fits p = (r.mnemonic == (decode p).mnemonic) := by
    simpa [hEncode] using fits_encode_eq_mnemonic (decode p) hWf
  rw [List.filter_congr hFits, rows_with_mnemonic]

/-! ### Patterns and numbers -/

theorem bits_lt_width (p : Pattern) : p.bits < 2 ^ p.format.width := by
  cases p with
  | cmd p => exact p.isLt
  | seq p => exact p.isLt
  | frame f => exact f.isLt

/-- A pattern is the pattern of its number. -/
theorem pattern_bits (p : Pattern) : p.format.pattern p.bits = p := by
  have hOfNat {n : Nat} (x : BitVec n) : BitVec.ofNat n x.toNat = x := by simp
  cases p with
  | cmd p => exact congrArg Pattern.cmd (hOfNat p)
  | seq p => exact congrArg Pattern.seq (hOfNat p)
  | frame f => exact congrArg Pattern.frame (hOfNat f)

theorem decodeBits_of_lt {fmt : Format} {w : Nat} (h : w < 2 ^ fmt.width) :
    decodeBits fmt w = .ok (decode (fmt.pattern w)) := if_pos h

theorem decodeBits_of_ge {fmt : Format} {w : Nat} (h : 2 ^ fmt.width ≤ w) : decodeBits fmt w = .error .tooWide :=
  if_neg (Nat.not_lt.mpr h)

/-- The decoder on numbers reads the number of a pattern as the pattern. -/
theorem decodeBits_bits (p : Pattern) : decodeBits p.format p.bits = .ok (decode p) := by
  rw [decodeBits_of_lt (bits_lt_width p), pattern_bits]

/-- Settles O5: a number below the width's power of two is decoded, any other rejected; the number of an encoding is
read as its pattern (`decodeBits_bits`), which decodes to the instruction (O2). -/
theorem decodeRejectsExactlyTheTooWide : Obligations.DecodeRejectsExactlyTheTooWide := by
  refine ⟨fun fmt w => ⟨fun hRejected => ?_, decodeBits_of_ge⟩, fun i hWf => ?_⟩
  · by_contra hNarrow
    cases (decodeBits_of_lt (Nat.not_le.mp hNarrow)).symm.trans hRejected
  · rw [decodeBits_bits, decodeOfEncodeIsTheInstruction i hWf]

/-- Settles O1: each word against the operation read off the spec's table. -/
theorem decodesWordsOfEveryFormat : Obligations.DecodesWordsOfEveryFormat := by
  unfold Obligations.DecodesWordsOfEveryFormat
  decide

/-- The reading of a frame by its two fields that count (30_encoding.md R74). -/
theorem decodeReading_eq_of_fields (f : Word) :
    decodeReading f =
      if frameFaultField f != 0#3 then .fault else .valid (sext (frameTempField f)).toInt := by
  have hFault : faultChk f = (frameFaultField f != 0#3) := by
    simpa only [frameOf_fields] using faultChk_frameOf (frameTempField f) (frameIgnField f) (frameFaultField f)
  have hTemp : extractField f = frameTempField f := extractField_eq f
  rw [decodeReading, hFault, hTemp]

/-- Settles O33: the field `IGN` does not occur in `decodeReading_eq_of_fields`. -/
theorem ignoredBitsDoNotMatter : Obligations.IgnoredBitsDoNotMatter := by
  intro f g hTemp hFault
  rw [decodeReading_eq_of_fields f, decodeReading_eq_of_fields g, hTemp, hFault]

end Sys2Proof
end

section
/-! The pattern that selects an operation: the step performs its decoding, and a placed pattern is selected; and the
constructor of the source (40_commands.md R95; 30_encoding.md R77 to R83). -/

namespace Sys2Proof.Machine

/-- A frame acts as DECODE does on a register that holds it (42_decoder.md R120, R125, R126). -/
theorem exec_decodeFrame (f : Word) (s : State) :
    exec (decode (.frame f)) s =
      .next (if faultChk f then reportFault s else reportTemp (sext (extractField f)) s) := by
  cases f using forall_frame with | h t g b
  have hBits : (b != 0#3) = (b.getLsbD 0 || b.getLsbD 1 || b.getLsbD 2) := by revert b; decide
  rw [decode, decodeFrame_frameOf, faultChk_frameOf, extractField_frameOf, hBits]
  cases b.getLsbD 0 with
  | true => rfl
  | false =>
    cases b.getLsbD 1 with
    | true => rfl
    | false =>
      cases b.getLsbD 2 with
      | true => rfl
      | false =>
        have hTemp : extractField (frameOf t g 0b000#3) = t := extractField_frameOf t g _
        simp [exec, execFrameTemp, hTemp]

/-- With `rst = 0` the two bits of the command port select READ or NOP. -/
theorem decode_command_of_not_rst {p : PortIn} (h : p.rst = false) :
    decode (.cmd p.command) = if p.start then .read else .nop := by
  have hCmd : ∀ b : Bool, decodeCmd (BitVec.ofBool false ++ BitVec.ofBool b) = if b then .read else .nop := by decide
  rw [decode, PortIn.command, h, hCmd]

/-- The micro-operation IDLE is the command that `start` gives (41_sequencer.md R101). -/
theorem exec_idle_eq_command {s : State} (h : s.port.rst = false) :
    exec .idle s = exec (decode (.cmd s.port.command)) s := by
  rw [decode_command_of_not_rst h]
  cases hStart : s.port.start with
  | true => simp [exec, execIdle, execRead, hStart]
  | false => simp [exec, execIdle, execNop, hStart]

/-- The phase's own SEQ pattern is selected without `rst`; beside it in IDLE the command, in DECODE the frame. -/
theorem mem_selected_of_not_rst {s : State} {p : Pattern} (h : s.port.rst = false) :
    p ∈ s.selected ↔ p = .seq s.phase.code ∨ (s.phase = .idle ∧ p = .cmd s.port.command) ∨
      (s.phase = .decode ∧ p = .frame s.frame) := by
  rw [State.selected, h]
  cases hPhase : s.phase <;> simp [Phase.code]

theorem mem_selected_of_rst {s : State} {p : Pattern} (h : s.port.rst = true) :
    p ∈ s.selected ↔ p = .cmd s.port.command := by
  simp [State.selected, h]

/-- Every selected pattern stands for the operation that the step fetches. -/
theorem exec_fetch_of_selected {s : State} {p : Pattern} (h : p ∈ s.selected) :
    exec s.fetch s = exec (decode p) s := by
  cases hRst : s.port.rst with
  | true =>
    obtain rfl := (mem_selected_of_rst hRst).mp h
    rw [State.fetch, if_pos hRst]
  | false =>
    obtain rfl | ⟨hPhase, rfl⟩ | ⟨hPhase, rfl⟩ := (mem_selected_of_not_rst hRst).mp h
    · rw [fetch_of_phase hRst]
    · rw [fetch_of_phase hRst, hPhase]
      exact exec_idle_eq_command hRst
    · rw [fetch_of_phase hRst, hPhase, exec_decodeFrame]
      rfl

theorem step_of_selected {s : State} {p : Pattern} (h : p ∈ s.selected) : step s = afterStep (exec (decode p) s) := by
  rw [step, exec_fetch_of_selected h]

/-- Settles O6: the step executes what a selected pattern stands for (`step_of_selected`), and the environment's move
changes the script and the counter only. -/
theorem stepPerformsTheSelectedOperation : Obligations.StepPerformsTheSelectedOperation := by
  intro s p hSelected
  refine ⟨step_of_selected hSelected, fun t hNext => ?_⟩
  rw [step_of_selected hSelected, hNext, afterStep_next]
  rfl

theorem code_ofCode (p : BitVec 3) : (Phase.ofCode p).code = p := by
  revert p; decide

theorem command_of_bits (p : BitVec 2) (so : Option Bool) :
    PortIn.command { rst := p.getLsbD 1, start := p.getLsbD 0, so := so } = p := by
  have hBits : ∀ p : BitVec 2, BitVec.ofBool (p.getLsbD 1) ++ BitVec.ofBool (p.getLsbD 0) = p := by decide
  exact hBits p

theorem withPattern_cmd_port (s : State) (p : BitVec 2) :
    (s.withPattern (.cmd p)).port = { rst := p.getLsbD 1, start := p.getLsbD 0, so := s.port.so } := by
  rw [State.withPattern]
  split <;> rfl

theorem withPattern_cmd_phase (s : State) {p : BitVec 2} (h : p.getLsbD 1 = false) :
    (s.withPattern (.cmd p)).phase = .idle := by
  rw [State.withPattern, if_neg (Bool.eq_false_iff.mp h)]

/-- A placed pattern selects its operation (assumption 9): a command without `rst` is placed in IDLE, a frame in
DECODE. -/
theorem mem_selected_withPattern (s : State) (p : Pattern) : p ∈ (s.withPattern p).selected := by
  cases p with
  | cmd p =>
    have hCmd : Pattern.cmd p = .cmd (s.withPattern (.cmd p)).port.command := by
      rw [withPattern_cmd_port, command_of_bits]
    have hPort : (s.withPattern (.cmd p)).port.rst = p.getLsbD 1 := by rw [withPattern_cmd_port]
    cases hRst : p.getLsbD 1 with
    | true => exact (mem_selected_of_rst (hPort.trans hRst)).mpr hCmd
    | false =>
      exact (mem_selected_of_not_rst (hPort.trans hRst)).mpr (.inr (.inl ⟨withPattern_cmd_phase s hRst, hCmd⟩))
  | seq p => exact (mem_selected_of_not_rst rfl).mpr (.inl (congrArg Pattern.seq (code_ofCode p).symm))
  | frame f => exact (mem_selected_of_not_rst rfl).mpr (.inr (.inr ⟨rfl, rfl⟩))

theorem decodeTableWord_eq_some {nbits w : Nat} {i : Instr} (h : decodeTableWord nbits w = some i) :
    ∃ p, tablePattern nbits w = some p ∧ decode p = i := by
  unfold decodeTableWord at h
  unfold tablePattern
  cases hFmt : tableFormat nbits with
  | none => simp [hFmt] at h
  | some fmt =>
    by_cases hw : w < 2 ^ fmt.width
    · exact ⟨fmt.pattern w, by simp [hw], by simpa [hFmt, decodeBits_of_lt hw, Except.toOption] using h⟩
    · simp [hFmt, decodeBits_of_ge (Nat.not_lt.mp hw), Except.toOption] at h

/-- Settles O10: the word's pattern is placed, a placed pattern is selected, and a selected pattern is what the step
performs. -/
theorem placedWordIsTheNextOperation : Obligations.PlacedWordIsTheNextOperation := by
  intro s nbits w i hWord
  obtain ⟨p, hPattern, rfl⟩ := decodeTableWord_eq_some hWord
  have hPlaced : s.withFetchWord nbits w = s.withPattern p := by rw [State.withFetchWord, hPattern]
  rw [hPlaced]
  exact step_of_selected (mem_selected_withPattern s p)

/-- Settles O17: the constructor is INIT under the given pins, so it constructs where they are distinct
(`construct_eq`) and is refused elsewhere. -/
theorem constructionTakesThePins : Obligations.ConstructionTakesThePins := by
  intro sel clk din s
  refine ⟨fun hSelClk hSelDin hClkDin => ?distinct, fun hEqual => ?equal⟩
  case distinct =>
    have hPins : ({ s.cfg with pinSel := sel, pinClk := clk, pinDin := din } : Config).pinsDistinct = true :=
      (pinsDistinct_iff _).mpr ⟨hSelClk, hSelDin, hClkDin⟩
    refine ⟨_, execInit_of_distinct false hPins, rfl, ?_⟩
    simp [construct_eq, State.resetWith]
  case equal =>
    exact initRefusesEqualPinIdentifiers false
      { s with cfg := { s.cfg with pinSel := sel, pinClk := clk, pinDin := din } } hEqual

end Sys2Proof.Machine
end

section
/-! The binary32 rendering of a reading, by the three fields of the IEEE 754 layout (42_decoder.md R127, 30_encoding.md
R84). -/

namespace Sys2Proof.Machine

/-- A binary32 pattern from its sign, biased exponent and fraction (30_encoding.md R84). -/
def f32Word (neg : Bool) (expo frac : Nat) : Word := BitVec.ofNat 32 (neg.toNat <<< 31 ||| expo <<< 23 ||| frac)

/-- The rendering of a number other than 0, by its fields. -/
theorem f32OfQuarters_of_ne_zero {q : Int} (h : q ≠ 0) :
    f32OfQuarters q =
      f32Word (decide (q < 0)) (125 + q.natAbs.log2) ((q.natAbs - 2 ^ q.natAbs.log2) <<< (23 - q.natAbs.log2)) := by
  rw [f32OfQuarters, if_neg h, f32Word]
  by_cases hNeg : q < 0 <;> simp [hNeg]

section
variable (neg : Bool) {expo frac : Nat} (hExpo : expo < 2 ^ 8) (hFrac : frac < 2 ^ 23)
include hExpo hFrac

/-- Fields that fit stand side by side. -/
theorem toNat_f32Word : (f32Word neg expo frac).toNat = neg.toNat * 2 ^ 31 + expo * 2 ^ 23 + frac := by
  have hNeg : neg.toNat < 2 := neg.toNat_lt
  have hLow : expo <<< 23 ||| frac = expo * 2 ^ 23 + frac := by
    rw [← Nat.shiftLeft_add_eq_or_of_lt hFrac, Nat.shiftLeft_eq]
  have hLowLt : expo * 2 ^ 23 + frac < 2 ^ 31 := by omega
  rw [f32Word, Nat.or_assoc, hLow, ← Nat.shiftLeft_add_eq_or_of_lt hLowLt, BitVec.toNat_ofNat, Nat.shiftLeft_eq]
  omega

theorem sign_f32Word : (f32Word neg expo frac).getLsbD 31 = neg := by
  rw [BitVec.getLsbD, toNat_f32Word neg hExpo hFrac, Nat.testBit_eq_decide_div_mod_eq]
  cases neg <;> simp <;> omega

theorem expo_f32Word : ((f32Word neg expo frac).extractLsb' 23 8).toNat = expo := by
  rw [BitVec.extractLsb'_toNat, toNat_f32Word neg hExpo hFrac, Nat.shiftRight_eq_div_pow]
  omega

theorem frac_f32Word : ((f32Word neg expo frac).extractLsb' 0 23).toNat = frac := by
  rw [BitVec.extractLsb'_toNat, toNat_f32Word neg hExpo hFrac, Nat.shiftRight_zero]
  omega

/-- The number that normal fields denote. -/
theorem f32Value_f32Word (hNormal : 0 < expo) (hFinite : expo ≠ 255) :
    f32Value (f32Word neg expo frac) =
      some ((if neg then -1 else 1) * ((2 ^ 23 + frac : Nat) : Rat) * 2 ^ expo / 2 ^ 150) := by
  simp only [f32Value, sign_f32Word neg hExpo hFrac, expo_f32Word neg hExpo hFrac, frac_f32Word neg hExpo hFrac,
    hFinite, hNormal.ne', if_false]

theorem isNaN32_f32Word (hFinite : expo ≠ 255) : isNaN32 (f32Word neg expo frac) = false := by
  have hField : (f32Word neg expo frac).extractLsb' 23 8 ≠ 0xFF#8 := fun h =>
    hFinite ((expo_f32Word neg hExpo hFrac).symm.trans (congrArg BitVec.toNat h))
  simp [isNaN32, hField]

end

/-- The bits below the top bit of a magnitude, moved up to the 23 bits of a fraction, fit them; with the hidden bit they
are the magnitude, moved as far. -/
theorem fraction_of_magnitude {m : Nat} (hm : m ≠ 0) (hLog : m.log2 ≤ 23) :
    (m - 2 ^ m.log2) <<< (23 - m.log2) < 2 ^ 23 ∧
    2 ^ 23 + (m - 2 ^ m.log2) <<< (23 - m.log2) = m * 2 ^ (23 - m.log2) := by
  have hTopBit : 2 ^ m.log2 ≤ m := Nat.log2_self_le hm
  have hBelow : m < 2 ^ m.log2 * 2 := Nat.lt_log2_self
  have hHidden : 2 ^ 23 = 2 ^ m.log2 * 2 ^ (23 - m.log2) := by rw [← Nat.pow_add, Nat.add_sub_cancel' hLog]
  rw [Nat.shiftLeft_eq, hHidden]
  constructor
  · exact Nat.mul_lt_mul_of_pos_right (by omega) (Nat.two_pow_pos _)
  · rw [← Nat.add_mul, Nat.add_sub_cancel' hTopBit]

theorem sign_mul_natAbs (q : Int) : (if decide (q < 0) then -1 else 1) * (q.natAbs : Rat) = q := by
  rw [Nat.cast_natAbs]
  by_cases hNeg : q < 0
  · simp [hNeg, abs_of_neg]
  · simp [hNeg, abs_of_nonneg (not_lt.mp hNeg)]

/-- The rendering of a number of quarters whose magnitude fits the significand denotes the number of degrees: the
exponent undoes the shift of the magnitude, up to the 4 of a quarter. -/
theorem f32Value_f32OfQuarters {q : Int} (hq : q ≠ 0) (hLog : q.natAbs.log2 ≤ 23) :
    f32Value (f32OfQuarters q) = some ((q : Rat) / 4) ∧ isNaN32 (f32OfQuarters q) = false := by
  obtain ⟨hFrac, hSignificand⟩ := fraction_of_magnitude (Int.natAbs_ne_zero.mpr hq) hLog
  have hExpo : 125 + q.natAbs.log2 < 2 ^ 8 := by omega
  have hFinite : 125 + q.natAbs.log2 ≠ 255 := by omega
  have hScale : (2 : Rat) ^ (23 - q.natAbs.log2) * 2 ^ (125 + q.natAbs.log2) = 2 ^ 148 := by
    rw [← pow_add]
    congr 1
    omega
  rw [f32OfQuarters_of_ne_zero hq]
  refine ⟨?_, isNaN32_f32Word _ hExpo hFrac hFinite⟩
  rw [f32Value_f32Word _ hExpo hFrac (by omega) hFinite, hSignificand]
  congr 1
  push_cast
  rw [← mul_assoc, sign_mul_natAbs, mul_assoc, hScale]
  ring

/-- The range of a reading fits the significand. -/
theorem log2_natAbs_le_of_range {q : Int} (hLow : -8192 ≤ q) (hHigh : q ≤ 8191) : q.natAbs.log2 ≤ 23 := by
  rw [Nat.log2_eq_log_two]
  calc Nat.log 2 q.natAbs ≤ Nat.log 2 (2 ^ 23) := Nat.log_mono_right (by omega)
    _ = 23 := Nat.log_pow (by omega) 23

/-- Settles O35: 0 is the pattern of zeros, any other reading `f32Value_f32OfQuarters`; the fault marker and no reading
render as the parameter's pattern, a NaN for well-formed parameters. -/
theorem binaryRenderingIsExact : Obligations.BinaryRenderingIsExact := by
  refine ⟨fun c q hLow hHigh => ?temperature, fun c hWf => ?noTemperature, fun c => ⟨rfl, rfl, rfl⟩⟩
  case temperature =>
    by_cases hq : q = 0
    · subst hq
      have hZero : f32Of c (some (.valid 0)) = 0#32 := rfl
      rw [hZero]
      exact ⟨by simp [f32Value], by decide⟩
    · exact f32Value_f32OfQuarters hq (log2_natAbs_le_of_range hLow hHigh)
  case noTemperature =>
    have hNaN : isNaN32 c.nanPattern = true := by
      simp only [Config.WellFormed, Bool.and_eq_true] at hWf
      obtain ⟨⟨-, hNaN⟩, -⟩ := hWf
      exact hNaN
    exact ⟨hNaN, hNaN⟩

end Sys2Proof.Machine
end

section
/-! The host commands: which operation the command port and the phase select, and what each command does
(40_commands.md R90 to R95). -/

namespace Sys2Proof.Machine

/-! ### The selected operation (40_commands.md R95) -/

theorem step_of_rst {s : State} (h : s.port.rst = true) : step s = afterStep (exec (.init s.port.start) s) := by
  rw [step, fetch_of_rst h]

theorem step_of_phase {s : State} {p : Phase} (hRst : s.port.rst = false) (hPhase : s.phase = p) :
    step s = afterStep (exec (decode (.seq p.code)) s) := by
  rw [step, fetch_of_phase hRst, hPhase]

/-- At rest the command port's own pattern is selected, and it stands for READ or NOP. -/
theorem step_at_rest {s : State} (hRst : s.port.rst = false) (hPhase : s.phase = .idle) :
    step s = afterStep (exec (if s.port.start then .read else .nop) s) := by
  have hSelected : .cmd s.port.command ∈ s.selected := (mem_selected_of_not_rst hRst).mpr (.inr (.inl ⟨hPhase, rfl⟩))
  rw [step_of_selected hSelected, decode_command_of_not_rst hRst]

theorem step_read_at_rest {s : State} (hRst : s.port.rst = false) (hPhase : s.phase = .idle)
    (hStart : s.port.start = true) : step s = afterStep (exec .read s) := by
  rw [step_at_rest hRst hPhase, hStart, if_pos rfl]

theorem step_nop_at_rest {s : State} (hRst : s.port.rst = false) (hPhase : s.phase = .idle)
    (hStart : s.port.start = false) : step s = afterStep (exec .nop s) := by
  rw [step_at_rest hRst hPhase, hStart, if_neg Bool.false_ne_true]

/-- Settles O7: `rst` first (`step_of_rst`), then the command at rest (`step_at_rest`), else the phase's micro-operation
(`step_of_phase`). -/
theorem stepObeysThePriorityOfThePort : Obligations.StepObeysThePriorityOfThePort := by
  intro s
  refine ⟨step_of_rst, fun hRst => ⟨step_read_at_rest hRst, step_nop_at_rest hRst, ?microOperations⟩⟩
  case microOperations =>
    exact ⟨step_of_phase hRst, step_of_phase hRst, step_of_phase hRst, step_of_phase hRst, step_of_phase hRst,
      step_of_phase hRst, step_of_phase hRst⟩

/-! ### The input levels in a step (40_commands.md R94) -/

theorem decode_code_ne_idle {p : Phase} (h : p ≠ .idle) : decode (.seq p.code) ≠ .idle := by
  revert h
  cases p <;> decide

/-- Every operation but IDLE sees no more of the present input levels than the data line, and the environment's move
takes the levels out of the state again. -/
theorem afterStep_exec_withPort {i : Instr} {s : State} {p : PortIn} (hIdle : i ≠ .idle) (hSo : p.so = s.port.so) :
    afterStep (exec i (s.withPort p)) = afterStep (exec i s) := by
  cases i with
  | idle => exact absurd rfl hIdle
  | init st =>
    cases hPins : s.cfg.pinsDistinct with
    | true =>
      simp only [exec, execInit_of_distinct st hPins, execInit_of_distinct (s := s.withPort p) st hPins]
      rfl
    | false =>
      simp only [exec, execInit_of_not_distinct st hPins, execInit_of_not_distinct (s := s.withPort p) st hPins]
  | bitsample =>
    have hBit : (s.withPort p).soBit = s.soBit := by
      have hPort : (s.withPort p).port = p := rfl
      simp only [State.soBit, hPort, hSo, withPort_freeIdx]
    simp only [exec, execBitsample, hBit]
    rfl
  | bithigh =>
    simp only [exec, execBithigh, nextBit_eq]
    rfl
  | decode =>
    simp only [exec, execDecode, withPort_frame]
    by_cases hFault : faultChk s.frame = true
    · simp only [hFault, if_true]
      rfl
    · simp only [hFault]
      rfl
  | read | nop | clkidle | selassert | bitlow | seldeassert | frameTemp | frameFaultXx1 | frameFaultX10 | frameFault100 =>
    rfl

/-- Settles O8: `start` does not move the phase's micro-operation, and while busy that is not IDLE, the only one that
looks at `start`. -/
theorem startIsIgnoredWhileBusy : Obligations.StartIsIgnoredWhileBusy := by
  intro s b hBusy hRst
  have hPhase : s.phase ≠ .idle := (busy_eq_true_iff s).mp hBusy
  have hRst' : (s.withPort { s.port with start := b }).port.rst = false := hRst
  rw [step_of_phase hRst' (withPort_phase s _), step_of_phase hRst rfl]
  exact afterStep_exec_withPort (decode_code_ne_idle hPhase) rfl

/-! ### The commands (40_commands.md R90 to R92) -/

/-- Settles O12: with distinct pins INIT is the construction (`construct_eq`), and the bit `start` that a step hands to
INIT is one it ignores. -/
theorem initPerformsTheConstruction : Obligations.InitPerformsTheConstruction := by
  intro st s hPins
  have hInit : ∀ st', exec (.init st') s = .next (construct s) := fun st' => execInit_of_distinct st' hPins
  refine ⟨?effect, fun hRst => ?step⟩
  case effect => rw [hInit, construct_eq, constructionEvents]
  case step => rw [step_of_rst hRst, hInit, hInit]

/-- Settles O14: the acceptance writes `phase` and `done` only, CLKIDLE is a busy phase, and `step_read_at_rest` names the
step that performs it. -/
theorem readIsAcceptedWithoutTouchingTheLines : Obligations.ReadIsAcceptedWithoutTouchingTheLines := by
  intro s
  exact ⟨rfl, (busy_eq_true_iff _).mpr nofun, fun hPhase hRst hStart => step_read_at_rest hRst hPhase hStart⟩

/-- Settles O15: NOP is `clearDone`, and `step_nop_at_rest` names the step that performs it. -/
theorem nopOnlyClearsDone : Obligations.NopOnlyClearsDone := by
  intro s
  exact ⟨rfl, fun hPhase hRst hStart => step_nop_at_rest hRst hPhase hStart⟩

end Sys2Proof.Machine
end

section
/-! The micro-operations of the sequencer, each from any state, with what the invariant adds in its phase
(41_sequencer.md R101 to R107); and that every step completes (R100) and samples on low lines only (R109). -/

namespace Sys2Proof.Machine

/-! ### What the invariant says of the lines in a phase (10_state.md R42) -/

/-- R42 (a): select is low in the four phases of the transfer, and only there. -/
theorem selectFollowsPhase_iff (s : State) :
    s.selectFollowsPhase = true ↔
      s.csN = decide (s.phase ∉ [Phase.bitlow, .bitsample, .bithigh, .seldeassert]) := by
  rw [State.selectFollowsPhase]
  cases s.phase <;> simp

section
variable {s : State} (h : s.Inv = true)
include h

theorem csN_of_inv : s.csN = decide (s.phase ∉ [Phase.bitlow, .bitsample, .bithigh, .seldeassert]) := by
  obtain ⟨hSel, -, -⟩ := sequencerParts_of_inv h
  exact (selectFollowsPhase_iff s).mp hSel

theorem sck_of_inv_selassert (hPhase : s.phase = .selassert) : s.sck = false := by
  obtain ⟨-, hSeq, -⟩ := sequencerParts_of_inv h
  simp only [State.sequencerFollowsPhase, hPhase, Bool.and_eq_true, Bool.not_eq_true'] at hSeq
  obtain ⟨⟨hSck, -⟩, -⟩ := hSeq
  exact hSck

/-- The clock is low before the first bit and high before the others (R42 (d)). -/
theorem sck_of_inv_bitlow (hPhase : s.phase = .bitlow) : s.sck = (s.bitidx != 31#5) := by
  obtain ⟨-, hSeq, -⟩ := sequencerParts_of_inv h
  simpa [State.sequencerFollowsPhase, hPhase] using hSeq

theorem sck_of_inv_bitsample (hPhase : s.phase = .bitsample) : s.sck = false := by
  obtain ⟨-, hSeq, -⟩ := sequencerParts_of_inv h
  simpa [State.sequencerFollowsPhase, hPhase] using hSeq

theorem sck_of_inv_bithigh (hPhase : s.phase = .bithigh) : s.sck = false := by
  obtain ⟨-, hSeq, -⟩ := sequencerParts_of_inv h
  simpa [State.sequencerFollowsPhase, hPhase] using hSeq

theorem sck_of_inv_seldeassert (hPhase : s.phase = .seldeassert) : s.sck = true := by
  obtain ⟨-, hSeq, -⟩ := sequencerParts_of_inv h
  simp only [State.sequencerFollowsPhase, hPhase, Bool.and_eq_true] at hSeq
  obtain ⟨hSck, -⟩ := hSeq
  exact hSck

/-- The position about to be sampled is still clear (R42 (f)). -/
theorem unsampledBit_of_inv_bitsample (hPhase : s.phase = .bitsample) : s.frame.getLsbD s.bitidx.toNat = false := by
  obtain ⟨-, -, hLow⟩ := sequencerParts_of_inv h
  rw [State.unsampledBitsClear, hPhase] at hLow
  have hClear : s.frame.toNat % 2 ^ (s.bitidx.toNat + 1) = 0 := by simpa [State.lowBitsClear] using hLow
  exact getLsbD_of_low_bits_clear hClear (Nat.lt_succ_self _)

theorem lowWaitDone_of_inv_bitsample (hPhase : s.phase = .bitsample) :
    [Event.drive .sck false, Event.wait .low] <:+ s.hist := by
  obtain ⟨-, -, -, -, -, -, hHist, -⟩ := (inv_iff s).mp h
  obtain ⟨-, hSuffix⟩ := (historyShowsLines_iff s).mp hHist
  exact hSuffix hPhase

end

/-! ### The micro-operations -/

/-- One drive is a transition exactly when it changes the level. -/
theorem transitionsTo_drive (l : OutLine) (lvl v : Bool) :
    transitionsTo l lvl v [.drive l lvl] = if v = lvl then 0 else 1 := by
  by_cases hv : v = lvl <;> simp [transitionsTo, hv]

/-- Settles O18: IDLE is `acceptRead` or `clearDone` by `start`; select is high in IDLE by R42 (a). -/
theorem idlePerformsReadOrNopByStart : Obligations.IdlePerformsReadOrNopByStart := by
  intro s
  refine ⟨fun hStart => ?read, fun hStart => ?nop, fun hInv hPhase => ?select⟩
  case read => simp [exec, execIdle, hStart, acceptRead, setPhase, clearDone]
  case nop => simp [exec, execIdle, hStart, clearDone]
  case select => rw [csN_of_inv hInv, hPhase]; rfl

/-- Settles O19: the effect is CLKIDLE's own composition; its drive is a transition by `transitionsTo_drive`. -/
theorem clkidleDrivesTheClockLowAndClearsTheFrame : Obligations.ClkidleDrivesTheClockLowAndClearsTheFrame := by
  intro s
  refine ⟨rfl, ?transition, fun hInv hPhase => ?select⟩
  case transition => rw [transitionsTo_drive]; cases s.sck <;> rfl
  case select => rw [csN_of_inv hInv, hPhase]; rfl

/-- BITLOW in one record (41_sequencer.md R104). -/
theorem exec_bitlow (s : State) :
    exec .bitlow s = .next
      { s with sck := false, phase := .bitsample, done := false, hist := s.hist ++ [.drive .sck false, .wait .low] } := by
  simp [exec, execBitlow, clearDone, setPhase, waitFor, pinWrite, emit]

/-- Settles O20: the settle wait, then the low wait of BITLOW (`exec_bitlow`); the clock is low by R42 (c). -/
theorem selassertDrivesSelectLowAndSettles : Obligations.SelassertDrivesSelectLowAndSettles := by
  intro s
  refine ⟨⟨_, rfl, ?effect, _, exec_bitlow _, ?waits⟩, sck_of_inv_selassert⟩
  case effect => simp [clearDone, setPhase, waitFor, pinWrite, emit]
  case waits => simp

/-- Settles O21: `exec_bitlow`; the clock falls where it was high, which R42 (d) says of every bit but the first. -/
theorem bitlowDrivesTheClockLowAndWaits : Obligations.BitlowDrivesTheClockLowAndWaits := by
  intro s
  refine ⟨exec_bitlow s, fun hInv hPhase => ?transition⟩
  case transition =>
    rw [transitionsTo_drive, sck_of_inv_bitlow hInv hPhase]
    by_cases hFirst : s.bitidx = 31#5 <;> simp [hFirst]

theorem soBit_of_driven {s : State} {v : Bool} (h : s.port.so = some v) : s.soBit = v := by
  simp [State.soBit, h]

theorem soBit_of_undriven {s : State} (h : s.port.so = none) : s.soBit = Config.freeSo s.freeIdx := by
  simp [State.soBit, h]

/-- A bit ORed into a frame at a position changes that position only. -/
theorem getLsbD_or_bitAt (f : Word) (b : Bool) (i : BitIdx) (j : Nat) :
    (f ||| bitAt b i).getLsbD j = if j = i.toNat then f.getLsbD j || b else f.getLsbD j := by
  rw [BitVec.getLsbD_or, getLsbD_bitAt]
  by_cases hj : j = i.toNat <;> simp [hj]

/-- Settles O22: the drawn bit is `soBit`, placed by `bitAt`; the invariant in BITSAMPLE gives the rest. -/
theorem bitsampleOrsTheDrawnBitIntoTheFrame : Obligations.BitsampleOrsTheDrawnBitIntoTheFrame := by
  intro s
  refine ⟨⟨s.soBit, s.frame ||| bitAt s.soBit s.bitidx, rfl, fun _ => soBit_of_driven, soBit_of_undriven, rfl,
    getLsbD_or_bitAt s.frame s.soBit s.bitidx⟩, fun hInv hPhase => ⟨unsampledBit_of_inv_bitsample hInv hPhase,
    sck_of_inv_bitsample hInv hPhase, ?select, lowWaitDone_of_inv_bitsample hInv hPhase⟩⟩
  case select => rw [csN_of_inv hInv, hPhase]; rfl

/-- Settles O23: the loop test is `nextBit`, whose decrement does not wrap; the clock was low by R42 (e). -/
theorem bithighDrivesTheClockHighAndCountsDown : Obligations.BithighDrivesTheClockHighAndCountsDown := by
  intro s
  refine ⟨fun hZero => ?last, fun hAbove => ⟨s.bitidx - 1#5, bitidx_pred_toNat hAbove, ?next⟩,
    fun hInv hPhase => ?transition⟩
  case last => simp [exec, execBithigh, nextBit_eq, hZero, clearDone, waitFor, pinWrite, emit]
  case next => simp [exec, execBithigh, nextBit_eq, hAbove, clearDone, waitFor, pinWrite, emit]
  case transition => rw [transitionsTo_drive, sck_of_inv_bithigh hInv hPhase]; rfl

/-- Settles O24: the effect is SELDEASSERT's own composition; the lines in its phase are those of R42 (a) and (e). -/
theorem seldeassertDrivesSelectHigh : Obligations.SeldeassertDrivesSelectHigh := by
  intro s
  refine ⟨rfl, fun hInv hPhase => ⟨?select, sck_of_inv_seldeassert hInv hPhase⟩⟩
  case select => rw [csN_of_inv hInv, hPhase]; rfl

/-! ### Every step -/

/-- No step changes the parameters. -/
theorem step_cfg {s t : State} (h : step s = .next t) : t.cfg = s.cfg := by
  obtain ⟨u, hu, rfl⟩ := step_eq_next h
  obtain ⟨-, -, -, -, -, -, -, -, -, hCfg, -⟩ := operationsWriteOnlyTheirRegisters _ _ _ hu
  exact hCfg

theorem exists_step_with_cfg_of_no_rst {s : State} (h : s.port.rst = false) :
    ∃ t, step s = .next t ∧ t.cfg = s.cfg := by
  obtain ⟨t, hStep⟩ := exists_step_of_no_rst h
  exact ⟨t, hStep, step_cfg hStep⟩

/-- Settles O9: without `rst` no operation can be refused; with it the step is INIT, which looks at the pins. -/
theorem everyStepCompletes : Obligations.EveryStepCompletes := by
  intro s
  refine ⟨fun hPins => ?distinct, fun hPins => ⟨fun hRst => ?refused, exists_step_with_cfg_of_no_rst⟩⟩
  case distinct =>
    cases hRst : s.port.rst with
    | false => exact exists_step_with_cfg_of_no_rst hRst
    | true =>
      have hStep : step s = .next (construct s).tick := by
        rw [step_of_rst hRst, exec, execInit_of_distinct _ hPins, afterStep_next]
      exact ⟨_, hStep, step_cfg hStep⟩
  case refused => rw [step_of_rst hRst, exec, execInit_of_not_distinct _ hPins, afterStep_refused]

/-- BITSAMPLE is the one operation that adds a sample. -/
theorem bitsample_of_performs_of_sample {s u : State} (h : Performs s u) {es : List Event} {i : BitIdx} {b : Bool}
    (hHist : u.hist = s.hist ++ es) (hSample : Event.sample i b ∈ es) :
    s.phase = .bitsample ∧ u = clearDone (setPhase .bithigh (sampleBit s.soBit s)) := by
  cases h with
  | bitsample _ hPhase => exact ⟨hPhase, rfl⟩
  | init =>
    obtain rfl : constructionEvents s.cfg.sckResetLevel = es := by simpa [construct_eq] using hHist
    simp [constructionEvents] at hSample
  | read | nop | clkidle | selassert | bitlow | bithigh | seldeassert | decodeFault | decodeTemp =>
    simp [acceptRead] at hHist
    subst hHist
    simp at hSample

/-- Settles O43: the step is a BITSAMPLE, which leaves the lines as they are, and they are low by the invariant. -/
theorem samplesOnlyWhileTheClockIsLow : Obligations.SamplesOnlyWhileTheClockIsLow := by
  intro s t es i b hInv hStep hHist hSample
  obtain ⟨u, hu, rfl⟩ := performs_of_step hStep
  obtain ⟨hPhase, rfl⟩ := bitsample_of_performs_of_sample hu hHist hSample
  have hCs : s.csN = false := by rw [csN_of_inv hInv, hPhase]; rfl
  have hSck : s.sck = false := sck_of_inv_bitsample hInv hPhase
  obtain rfl : [Event.sample s.bitidx s.soBit] = es := List.append_cancel_left hHist
  cases List.mem_singleton.mp hSample
  exact ⟨rfl, rfl, hCs, hSck, hCs, hSck, lowWaitDone_of_inv_bitsample hInv hPhase⟩

end Sys2Proof.Machine
end

section
/-! A READ in progress: how many steps it still takes, and that each step takes one of them; so it ends, and its course is
the step table (41_sequencer.md R108, R110). -/

namespace Sys2Proof.Machine

/-- Steps up to and with the DECODE that ends a READ, from its phase and position; none at rest. -/
def State.stepsLeft (s : State) : Nat :=
  match s.phase with
  | .idle => 0
  | .clkidle => 100
  | .selassert => 6 + 3 * s.bitidx.toNat
  | .bitlow => 5 + 3 * s.bitidx.toNat
  | .bitsample => 4 + 3 * s.bitidx.toNat
  | .bithigh => 3 + 3 * s.bitidx.toNat
  | .seldeassert => 2
  | .decode => 1

theorem phase_eq_idle_iff_stepsLeft (s : State) : s.phase = .idle ↔ s.stepsLeft = 0 := by
  cases hPhase : s.phase <;> simp [State.stepsLeft, hPhase]

theorem stepsLeft_le (s : State) : s.stepsLeft ≤ 100 := by
  have := s.bitidx.isLt
  unfold State.stepsLeft
  split <;> omega

/-- What holds of every state in which a READ has ended: a result is there, and `done` tells of it. -/
def State.CompleteAtRest (s : State) : Prop := s.phase = .idle → s.done = true ∧ s.valid = true

/-- The registers of a READ that began with its acceptance: `done` only at its end, select by R42 (a), and the position as
CLKIDLE and the last bit leave it. -/
structure State.InRead (s : State) : Prop where
  done : s.done = true ↔ s.phase = .idle
  select : s.selectFollowsPhase = true
  firstPosition : s.phase = .selassert → s.bitidx = 31#5
  lastPosition : s.phase ∈ [Phase.seldeassert, .decode, .idle] → s.bitidx = 0#5

section
variable {s u : State} (h : Performs s u) (hRst : s.port.rst = false) (hBusy : s.phase ≠ .idle)
include h hRst hBusy

theorem stepsLeft_of_performs : u.tick.stepsLeft + 1 = s.stepsLeft := by
  cases h with
  | init hRst' => simp [hRst] at hRst'
  | read _ hIdle | nop _ hIdle => exact absurd hIdle hBusy
  | bithigh _ hPhase =>
    by_cases hZero : s.bitidx = 0#5
    · simp [State.stepsLeft, hPhase, nextBit_eq, hZero]
    · have hPred := bitidx_pred_toNat hZero
      simp [State.stepsLeft, hPhase, nextBit_eq, hZero]
      omega
  | clkidle _ hPhase | selassert _ hPhase | bitlow _ hPhase | bitsample _ hPhase | seldeassert _ hPhase
  | decodeFault _ hPhase | decodeTemp _ hPhase =>
    simp +arith [State.stepsLeft, hPhase]

theorem completeAtRest_of_performs : u.tick.CompleteAtRest := by
  cases h with
  | init hRst' => simp [hRst] at hRst'
  | read _ hIdle | nop _ hIdle => exact absurd hIdle hBusy
  | clkidle | selassert | bitlow | bitsample | seldeassert => exact nofun
  | bithigh =>
    intro hIdle
    by_cases hZero : s.bitidx = 0#5 <;> simp [nextBit_eq, hZero] at hIdle
  | decodeFault | decodeTemp => exact fun _ => ⟨rfl, rfl⟩

theorem inRead_of_performs (hIn : s.InRead) : u.tick.InRead := by
  obtain ⟨-, hSel, -, hLast⟩ := hIn
  cases h with
  | init hRst' => simp [hRst] at hRst'
  | read _ hIdle | nop _ hIdle => exact absurd hIdle hBusy
  | clkidle _ hPhase =>
    rw [State.selectFollowsPhase, hPhase] at hSel
    exact ⟨by simp, hSel, fun _ => rfl, by simp⟩
  | selassert => exact ⟨by simp, rfl, nofun, by simp⟩
  | bitlow _ hPhase | bitsample _ hPhase =>
    rw [State.selectFollowsPhase, hPhase] at hSel
    exact ⟨by simp, hSel, nofun, by simp⟩
  | bithigh _ hPhase =>
    rw [State.selectFollowsPhase, hPhase] at hSel
    by_cases hZero : s.bitidx = 0#5
    · rw [nextBit_at_zero (s := waitFor .high (pinWrite .sck true s)) hZero]
      exact ⟨by simp, hSel, nofun, fun _ => hZero⟩
    · rw [nextBit_above_zero (s := waitFor .high (pinWrite .sck true s)) hZero]
      exact ⟨by simp, hSel, nofun, by simp⟩
  | seldeassert _ hPhase => exact ⟨by simp, rfl, nofun, fun _ => hLast (by simp [hPhase])⟩
  | decodeFault _ hPhase | decodeTemp _ hPhase =>
    rw [State.selectFollowsPhase, hPhase] at hSel
    exact ⟨by simp, hSel, nofun, fun _ => hLast (by simp [hPhase])⟩

end

theorem portAt_after_step {s t : State} (h : step s = .next t) (n : Nat) : t.portAt n = s.portAt (n + 1) := by
  rw [portAt_of_drop (k := 1) ((step_inputs h).trans List.drop_one.symm), Nat.add_comm]

/-- A run within a READ in progress: each step takes one of the steps left, and what every operation in a READ keeps
holds at its end. -/
theorem run_in_read {P : State → Prop}
    (hKeep : ∀ {s u}, Performs s u → s.port.rst = false → s.phase ≠ .idle → P s → P u.tick) {k : Nat} {s : State}
    (hk : k ≤ s.stepsLeft) (hRst : ∀ n, n < k → (s.portAt n).rst = false) (hP : P s) :
    ∃ t, core.run k s = .next t ∧ t.stepsLeft + k = s.stepsLeft ∧ P t := by
  induction k generalizing s with
  | zero => exact ⟨s, rfl, rfl, hP⟩
  | succ k ih =>
    have hPort : s.port.rst = false := portAt_zero s ▸ hRst 0 (by omega)
    have hBusy : s.phase ≠ .idle := fun hIdle => by
      have := (phase_eq_idle_iff_stepsLeft s).mp hIdle
      omega
    obtain ⟨v, hStep⟩ := exists_step_of_no_rst hPort
    obtain ⟨u, hu, rfl⟩ := performs_of_step hStep
    have hLeft := stepsLeft_of_performs hu hPort hBusy
    have hRstAfter : ∀ n, n < k → (u.tick.portAt n).rst = false := fun n hn => by
      rw [portAt_after_step hStep]
      exact hRst (n + 1) (by omega)
    obtain ⟨t, hRun, hLeftAfter, hPt⟩ := ih (by omega) hRstAfter (hKeep hu hPort hBusy hP)
    exact ⟨t, (run_succ_of_step k hStep).trans hRun, by omega, hPt⟩

/-- Settles O49: the steps left run out, and the state at rest is complete. -/
theorem everyReadEnds : Obligations.EveryReadEnds := by
  intro s hBusy hRst
  have hAtMost := stepsLeft_le s
  have hStart : s.CompleteAtRest := fun hIdle => absurd hIdle ((busy_eq_true_iff s).mp hBusy)
  obtain ⟨t, hRun, hLeft, hComplete⟩ := run_in_read (P := State.CompleteAtRest)
    (fun hu hRst hBusy _ => completeAtRest_of_performs hu hRst hBusy) le_rfl (fun n hn => hRst n (by omega)) hStart
  have hIdle : t.phase = .idle := (phase_eq_idle_iff_stepsLeft t).mpr (by omega)
  obtain ⟨hDone, hValid⟩ := hComplete hIdle
  exact ⟨s.stepsLeft, t, hAtMost, hRun, hIdle, hDone, hValid⟩

/-! ### The step table -/

/-- The rows of the 32 bits. -/
theorem phaseOfRead_in_bits {n : Nat} (hFirst : 3 ≤ n) (hLast : n ≤ 98) :
    phaseOfRead n = if n % 3 = 0 then .bitlow else if n % 3 = 1 then .bitsample else .bithigh := by
  rw [phaseOfRead, if_neg (by omega), if_neg (by omega), if_neg (by omega), if_neg (by omega), if_neg (by omega)]

/-- A READ with `101 - n` steps left stands in row `n` of the step table (41_sequencer.md R110). -/
theorem row_of_stepsLeft {t : State} {n : Nat} (hIn : t.InRead) (hn : 1 ≤ n) (hLeft : t.stepsLeft + n = 101) :
    t.phase = phaseOfRead n ∧ (2 ≤ n → t.bitidx.toNat = 31 - min ((n - 3) / 3) 31) ∧
      (t.csN = false ↔ 3 ≤ n ∧ n ≤ 99) ∧ (t.busy = true ↔ n ≠ 101) ∧ (t.done = true ↔ n = 101) := by
  obtain ⟨hDone, hSel, hFirst, hLast⟩ := hIn
  have hIdx := t.bitidx.isLt
  rw [hDone, busy_eq_true_iff, (selectFollowsPhase_iff t).mp hSel]
  cases hPhase : t.phase with
  | clkidle =>
    obtain rfl : n = 1 := by simp [State.stepsLeft, hPhase] at hLeft; omega
    simp [phaseOfRead]
  | selassert =>
    have h31 := hFirst hPhase
    obtain rfl : n = 2 := by simp [State.stepsLeft, hPhase, h31] at hLeft; omega
    simp [phaseOfRead, h31]
  | seldeassert =>
    have h0 := hLast (by simp [hPhase])
    obtain rfl : n = 99 := by simp [State.stepsLeft, hPhase] at hLeft; omega
    simp [phaseOfRead, h0]
  | decode =>
    have h0 := hLast (by simp [hPhase])
    obtain rfl : n = 100 := by simp [State.stepsLeft, hPhase] at hLeft; omega
    simp [phaseOfRead, h0]
  | idle =>
    have h0 := hLast (by simp [hPhase])
    obtain rfl : n = 101 := by simp [State.stepsLeft, hPhase] at hLeft; omega
    simp [phaseOfRead, h0]
  | bitlow =>
    simp only [State.stepsLeft, hPhase] at hLeft
    have hRow : phaseOfRead n = .bitlow := by
      rw [phaseOfRead_in_bits (by omega) (by omega), if_pos (by omega)]
    simp [hRow]
    omega
  | bitsample =>
    simp only [State.stepsLeft, hPhase] at hLeft
    have hRow : phaseOfRead n = .bitsample := by
      rw [phaseOfRead_in_bits (by omega) (by omega), if_neg (by omega), if_pos (by omega)]
    simp [hRow]
    omega
  | bithigh =>
    simp only [State.stepsLeft, hPhase] at hLeft
    have hRow : phaseOfRead n = .bithigh := by
      rw [phaseOfRead_in_bits (by omega) (by omega), if_neg (by omega), if_neg (by omega)]
    simp [hRow]
    omega

/-- Settles O47: the acceptance leaves 100 steps, each later step takes one, and the number left fixes the row. -/
theorem readFollowsTheStepTable : Obligations.ReadFollowsTheStepTable := by
  intro s n hRead hCs hn hLast
  obtain ⟨hPhase, hStart, hRst⟩ := hRead
  obtain ⟨k, rfl⟩ : ∃ k, n = k + 1 := ⟨n - 1, by omega⟩
  have hAccept : step s = .next (acceptRead s).tick :=
    step_read_at_rest (portAt_zero s ▸ hRst 0 (by omega)) hPhase hStart
  have hHundred : (acceptRead s).tick.stepsLeft = 100 := rfl
  have hIn : (acceptRead s).tick.InRead := ⟨by simp [acceptRead], hCs, nofun, by simp [acceptRead]⟩
  have hRstAfter : ∀ m, m < k → ((acceptRead s).tick.portAt m).rst = false := fun m hm => by
    rw [portAt_after_step hAccept]
    exact hRst (m + 1) (by omega)
  obtain ⟨t, hRun, hLeft, hInAtEnd⟩ := run_in_read inRead_of_performs (show k ≤ _ by omega) hRstAfter hIn
  exact ⟨t, (run_succ_of_step k hAccept).trans hRun, row_of_stepsLeft hInAtEnd hn (by omega)⟩

end Sys2Proof.Machine
end

section
/-! The pure functions of the decode contract: the fault test, the extraction, the sign extension and its equivalent
forms, and the round trip of a temperature (42_decoder.md R121 to R131). -/

namespace Sys2Proof.Machine

/-! ### The fault test (R121) -/

theorem decodeReading_of_fault {f : Word} (h : faultChk f = true) : decodeReading f = .fault := by
  simp [decodeReading, h]

theorem decodeReading_of_no_fault {f : Word} (h : faultChk f = false) :
    decodeReading f = .valid (sext (extractField f)).toInt := by
  simp [decodeReading, h]

theorem decodeReading_eq_fault_iff (f : Word) : decodeReading f = .fault ↔ faultChk f = true := by
  refine ⟨fun hReading => ?_, decodeReading_of_fault⟩
  by_contra hFault
  cases hReading.symm.trans (decodeReading_of_no_fault (Bool.eq_false_iff.mpr hFault))

/-- Settles O29: the OR of the bits is `faultChk_eq_or`; the test sees a frame through the mask of those bits only. -/
theorem faultCheckIsTheOrOfTheBottomBits : Obligations.FaultCheckIsTheOrOfTheBottomBits := by
  refine ⟨faultChk_eq_or, fun f g hBits => ?influence, decodeReading_eq_fault_iff, by decide, by decide⟩
  case influence => rw [faultChk, hBits, faultChk]

/-! ### The extraction (R122) -/

theorem toNat_extractField (f : Word) : (extractField f).toNat = f.toNat / 2 ^ 18 := by
  have hWidth : f.toNat / 2 ^ 18 < 2 ^ 14 := by omega
  rw [extractField_eq, BitVec.extractLsb'_toNat, Nat.shiftRight_eq_div_pow, Nat.mod_eq_of_lt hWidth]

theorem toNat_and_fieldMask (x : Word) : (x &&& 0x3FFF#32).toNat = x.toNat % 2 ^ 14 :=
  Nat.and_two_pow_sub_one_eq_mod x.toNat 14

/-- After the shift by 18 only 14 bits are left, and the mask keeps them all. -/
theorem shiftRight_and_fieldMask (f : Word) : (f >>> 18) &&& 0x3FFF#32 = f >>> 18 := by
  apply BitVec.eq_of_toNat_eq
  rw [toNat_and_fieldMask, BitVec.toNat_ushiftRight, Nat.shiftRight_eq_div_pow]
  omega

/-- Settles O30: the field is `extractField_eq`, its number and the mask follow from the 14 bits the shift leaves. -/
theorem extractionIsTheTopFourteenBits : Obligations.ExtractionIsTheTopFourteenBits := fun f =>
  ⟨extractField_eq f, toNat_extractField f, shiftRight_and_fieldMask f⟩

/-- Clearing every bit below the field keeps the field and leaves no fault bit. -/
theorem extractField_and_upper (f : Word) : extractField (f &&& 0xFFFC0000#32) = extractField f := by
  have hMask : (0xFFFC0000#32 >>> 18) &&& 0x3FFF#32 = 0x3FFF#32 := by decide
  rw [extractField, BitVec.ushiftRight_and_distrib, BitVec.and_assoc, hMask, extractField]

theorem faultChk_and_upper (f : Word) : faultChk (f &&& 0xFFFC0000#32) = false := by
  have hMask : 0xFFFC0000#32 &&& 0x00000007#32 = 0#32 := by decide
  simp [faultChk, BitVec.and_assoc, hMask]

/-! ### The sign extension (R123, R130) -/

/-- Bit 13 is the sign: it is set from 8192 on. -/
theorem signBit_eq (x : Field) : x.getLsbD 13 = decide (8192 ≤ x.toNat) := by
  rw [← show x.msb = x.getLsbD 13 from BitVec.msb_eq_getLsbD_last x, BitVec.msb_eq_decide]

theorem toInt_field (x : Field) :
    x.toInt = if x.toNat < 8192 then (x.toNat : Int) else (x.toNat : Int) - 16384 := by
  rw [BitVec.toInt_eq_toNat_cond]
  split <;> split <;> omega

theorem toInt_sext (x : Field) : (sext x).toInt = x.toInt := toInt_sextTo (by decide) x

/-- The bits of the extension are those of the field, then copies of its bit 13. -/
theorem getLsbD_sextTo {w : Nat} (x : Field) {j : Nat} (hj : j < w) :
    (sextTo w x).getLsbD j = if j < 14 then x.getLsbD j else x.getLsbD 13 := by
  rw [sextTo_eq_signExtend, BitVec.getLsbD_signExtend, BitVec.msb_eq_getLsbD_last]
  simp [hj]

/-- Settles O31: at each width the extension denotes the field's own signed number (`toInt_sextTo`, `toInt_sext`). -/
theorem signExtensionDenotesTheFieldAsSigned : Obligations.SignExtensionDenotesTheFieldAsSigned := by
  intro w x hw
  exact ⟨(toInt_sextTo hw x).trans (toInt_field x), fun j hj => getLsbD_sextTo x hj,
    (toInt_sext x).trans (toInt_sextTo hw x).symm⟩

/-- Flipping bit 13 moves a field by half the range, up or down. -/
theorem toNat_flip_signBit (x : Field) :
    (x ^^^ 0x2000#14).toNat = if x.toNat < 8192 then x.toNat + 8192 else x.toNat - 8192 := by
  have hLow : (x ^^^ 0x2000#14).toNat % 2 ^ 13 = x.toNat % 2 ^ 13 := by
    rw [BitVec.toNat_xor, Nat.xor_mod_two_pow]
    exact Nat.xor_zero _
  have hHigh : (x ^^^ 0x2000#14).toNat / 2 ^ 13 = x.toNat / 2 ^ 13 ^^^ 1 := by
    rw [BitVec.toNat_xor, Nat.xor_div_two_pow]
    rfl
  have hx := x.isLt
  split
  case isTrue h =>
    rw [show x.toNat / 2 ^ 13 = 0 by omega, Nat.zero_xor] at hHigh
    omega
  case isFalse h =>
    rw [show x.toNat / 2 ^ 13 = 1 by omega, Nat.xor_self] at hHigh
    omega

/-- The field moved to the top of the word and shifted back arithmetically is its sign extension. -/
theorem sshiftRight_shiftLeft_eq_sextTo {w : Nat} (hw : 14 ≤ w) (x : Field) :
    ((x.setWidth w) <<< (w - 14)).sshiftRight (w - 14) = sextTo w x := by
  have hSign : ((x.setWidth w) <<< (w - 14)).msb = x.getLsbD 13 := by
    rw [BitVec.msb_eq_getLsbD_last, BitVec.getLsbD_shiftLeft, BitVec.getLsbD_setWidth,
      show w - 1 - (w - 14) = 13 by omega]
    have hLast : w - 1 < w := by omega
    have hShifted : ¬ w - 1 < w - 14 := by omega
    have hSignBit : 13 < w := by omega
    simp [hLast, hShifted, hSignBit]
  apply BitVec.eq_of_getLsbD_eq
  intro j hj
  rw [getLsbD_sextTo x hj, BitVec.getLsbD_sshiftRight, hSign]
  by_cases hField : j < 14
  · have hShift : w - 14 + j < w := by omega
    simp [hj, hField, hShift]
  · have hShift : ¬ w - 14 + j < w := by omega
    simp [hj, hField, hShift]

/-- The number in the top 14 bits of a frame, read as signed, is the frame's own shifted arithmetically. -/
theorem toInt_extractField (f : Word) : (extractField f).toInt = f.toInt / 2 ^ 18 := by
  rw [toInt_field, toNat_extractField, BitVec.toInt_eq_toNat_cond]
  split <;> split <;> omega

/-- Settles O32: each form denotes the field's own signed number, as the sign extension does. -/
theorem signExtensionFormsAreEquivalent : Obligations.SignExtensionFormsAreEquivalent := by
  refine ⟨fun w x hw => ⟨?weightOfSignBit, ?flippedSignBit, ?arithmeticShift⟩, fun f => ⟨?wholeFrame, ?signBit, ?masked⟩⟩
  case weightOfSignBit =>
    rw [toInt_sextTo hw, toInt_field, signBit_eq]
    simp only [decide_eq_true_eq]
    split <;> split <;> omega
  case flippedSignBit =>
    rw [toInt_sextTo hw, toInt_field, toNat_flip_signBit]
    split <;> omega
  case arithmeticShift => rw [sshiftRight_shiftLeft_eq_sextTo hw]
  case wholeFrame => rw [toInt_sext, toInt_extractField]
  case signBit => exact BitVec.getLsbD_ushiftRight f 18 13
  case masked => rw [shiftRight_and_fieldMask]; exact BitVec.getLsbD_ushiftRight f 18 13

/-! ### The round trip (R131) -/

/-- A frame without a fault bit, put together by shifts. -/
theorem frameOf_zero_eq_or (t : Field) (g : Ignored) :
    frameOf t g 0b000#3 = t.setWidth 32 <<< 18 ||| g.setWidth 32 <<< 3 := by
  have hWord : (frameOf t g 0b000#3).setWidth 32 = frameOf t g 0b000#3 := BitVec.setWidth_eq _
  rw [← hWord, frameOf, BitVec.setWidth_append_append_eq_shiftLeft_setWidth_or]
  exact BitVec.or_zero

/-- The low 14 bits of a number are the number at the width of the field. -/
theorem ofInt_and_fieldMask (q : Int) : BitVec.ofInt 32 q &&& 0x3FFF#32 = (BitVec.ofInt 14 q).setWidth 32 := by
  apply BitVec.eq_of_toNat_eq
  rw [toNat_and_fieldMask, BitVec.toNat_setWidth, BitVec.toNat_ofInt, BitVec.toNat_ofInt]
  omega

theorem decodeReading_frameOf_zero (t : Field) (g : Ignored) : decodeReading (frameOf t g 0b000#3) = .valid t.toInt := by
  rw [decodeReading_of_no_fault (faultChk_frameOf t g 0b000#3), extractField_frameOf, toInt_sext]

/-- Settles O34: the word is the frame of the field `q` (`frameOf_zero_eq_or`), and a field in range denotes `q`. -/
theorem everyTemperatureRoundTrips : Obligations.EveryTemperatureRoundTrips := by
  refine ⟨fun q g hLow hHigh => ?roundTrip, fun f q hReading => ?range⟩
  case roundTrip =>
    have hField : (BitVec.ofInt 14 q).toInt = q :=
      BitVec.toInt_ofInt_eq_self (by decide) (by omega) (by omega)
    rw [ofInt_and_fieldMask, ← frameOf_zero_eq_or, decodeReading_frameOf_zero, hField]
  case range =>
    cases hFault : faultChk f with
    | true => cases (decodeReading_of_fault hFault).symm.trans hReading
    | false =>
      cases (decodeReading_of_no_fault hFault).symm.trans hReading
      exact sext_range (extractField f)

end Sys2Proof.Machine
end

section
/-! DECODE and the frame classes: what each writes, and who else writes the result registers (42_decoder.md R120, R124 to
R126). -/

namespace Sys2Proof.Machine

/-- The report of a verdict in one record: the registers R120 names, and no other. -/
theorem reportVerdict_eq (b : Bool) (q : Quarters) (s : State) :
    (if b then reportFault s else reportTemp q s) =
      { s with
        fault := some b, tempQ := if b = true then none else some q, valid := true, done := true, phase := .idle } := by
  cases b <;> rfl

/-- Settles O25: the effect is `reportVerdict_eq` and the reading `reading_of_verdict`; select is high in DECODE by
R42 (a); the other writers of the result registers are those of `resultRegisters_of_performs`. -/
theorem decodeReportsTheVerdictOnTheFrame : Obligations.DecodeReportsTheVerdictOnTheFrame := by
  intro s
  refine ⟨⟨_, rfl, reportVerdict_eq _ _ s, ?reading⟩, fun hInv hPhase => ?select, fun t hStep hNotDecode => ?onlyWriter⟩
  case reading =>
    rw [reportVerdict_eq]
    exact reading_of_verdict rfl rfl rfl
  case select => rw [csN_of_inv hInv, hPhase]; rfl
  case onlyWriter =>
    obtain ⟨u, hPerforms, rfl⟩ := performs_of_step hStep
    obtain ⟨hRst, rfl⟩ | ⟨hRst, hPhase, -⟩ | ⟨-, -, -, -, hFault, hTemp⟩ := resultRegisters_of_performs hPerforms
    · exact .inr ⟨hRst, rfl, rfl⟩
    · exact absurd ⟨hRst, hPhase⟩ hNotDecode
    · exact .inl ⟨hFault, hTemp⟩

theorem exec_frameTemp (t : Field) (g : Ignored) (s : State) : exec (.frameTemp t g) s = .next (reportTemp (sext t) s) := by
  have hField : extractField (frameOf t g 0b000#3) = t := extractField_frameOf t g _
  simp only [exec, execFrameTemp, hField]

/-- Settles O26: without a fault bit the reading is the field's, which the bits below it do not reach. -/
theorem temperatureFrameDeliversItsField : Obligations.TemperatureFrameDeliversItsField := by
  refine ⟨fun f hFault => ⟨decodeReading_of_no_fault hFault, ?celsius, rfl, ?ignored⟩, fun c => ?zero, exec_frameTemp⟩
  case celsius => rw [decodeReading_of_no_fault hFault]; rfl
  case ignored =>
    rw [decodeReading_of_no_fault hFault, decodeReading_of_no_fault (faultChk_and_upper f), extractField_and_upper]
  case zero =>
    have hZero : decodeReading 0x00000000#32 = .valid 0 := by decide
    rw [hZero]
    rfl

/-- Settles O27: the report of a fault looks at no field of the frame. -/
theorem faultFrameDeliversTheMarkerOnly : Obligations.FaultFrameDeliversTheMarkerOnly := by
  refine ⟨fun f hFault => ⟨decodeReading_of_fault hFault, ?celsius⟩, fun i t g b s hClass => ?effect⟩
  case celsius => rw [decodeReading_of_fault hFault]; rfl
  case effect =>
    obtain rfl | rfl | rfl := hClass
    · rfl
    · rfl
    · rfl

/-- Settles O28: both are the verdict on the frame (`exec_decodeFrame`). -/
theorem frameClassesAgreeWithDecode : Obligations.FrameClassesAgreeWithDecode := fun s =>
  exec_decodeFrame s.frame s

end Sys2Proof.Machine
end

section
/-! A data line stuck at one level: the frame a READ receives from it, and the verdict on that frame (60_exceptions.md R148). -/

namespace Sys2Proof.Machine

/-- A READ whose 32 samples all draw `b` receives the frame of 32 bits `b`. -/
theorem sampledFrame_of_stuck {bits : Nat → Bool} {b : Bool} (h : ∀ i, i < 32 → bits i = b) :
    sampledFrame bits 32 0#32 = BitVec.fill 32 b :=
  sampledFrame_eq fun i hi => by rw [h i hi, BitVec.getLsbD_fill]; simp [hi]

/-- Of the two frames without a transition only that of ones has a fault bit set (42_decoder.md R121). -/
theorem faultChk_fill (b : Bool) : faultChk (BitVec.fill 32 b) = b := by
  cases b <;> decide

/-- The all-zeros frame is the temperature zero (42_decoder.md R126), the all-ones frame a fault (R125). -/
theorem decodeReading_fill (b : Bool) :
    decodeReading (BitVec.fill 32 b) = if b = true then .fault else .valid 0 := by
  cases b with
  | false =>
    have hField : (sext (extractField (BitVec.fill 32 false))).toInt = 0 := by decide
    rw [decodeReading_of_no_fault (faultChk_fill false), hField]
    rfl
  | true => exact decodeReading_of_fault (faultChk_fill true)

/-- Settles O50: the frame received is 32 copies of the level the line is stuck at, and the verdict is the one on that
frame; nothing else of the line reaches the host. -/
theorem stuckLineIsNotDetected : Obligations.StuckLineIsNotDetected := by
  intro s b hRead hStuck
  have hRun : core.run 101 s = .next (s.afterRead (BitVec.fill 32 b)) :=
    sampledFrame_of_stuck hStuck ▸ run_read_eq_afterRead hRead
  refine ⟨s.afterRead (BitVec.fill 32 b), hRun, ?reading, ?fault⟩
  case reading => rw [reading_afterRead, decodeReading_fill]
  case fault => exact congrArg some (faultChk_fill b)

end Sys2Proof.Machine
end

section
/-! The ticks of one READ: how many a READ in progress still takes, and that each of its steps lasts what it takes off
them (70_reset_and_hazards.md R181). -/

namespace Sys2Proof.Machine

/-! ### The ticks of a step -/

theorem runTicks_succ_of_step {s t : State} (k : Nat) (h : step s = .next t) :
    runTicks (k + 1) s = ticksOf s.cfg s.fetch + runTicks k t := by
  simp only [runTicks, h]

/-- Ticks of the micro-operation of a phase. -/
def ticksInPhase (c : Config) : Phase → Nat
  | .selassert => c.nSettle
  | .bitlow => c.nLow
  | .bithigh => c.nHigh
  | .idle | .clkidle | .bitsample | .seldeassert | .decode => 1

theorem ticksOf_fetch_of_phase {s : State} {p : Phase} (hRst : s.port.rst = false) (hPhase : s.phase = p) :
    ticksOf s.cfg s.fetch = ticksInPhase s.cfg p := by
  rw [fetch_of_phase hRst, hPhase]
  cases p <;> rfl

/-! ### The ticks left -/

/-- Ticks of one bit: BITLOW, BITSAMPLE and BITHIGH. -/
def ticksPerBit (c : Config) : Nat := c.nLow + 1 + c.nHigh

/-- Ticks up to and with the DECODE that ends a READ, from its phase and position; none at rest. -/
def State.ticksLeft (s : State) : Nat :=
  match s.phase with
  | .idle => 0
  | .clkidle => 1 + s.cfg.nSettle + 32 * ticksPerBit s.cfg + 2
  | .selassert => s.cfg.nSettle + (s.bitidx.toNat + 1) * ticksPerBit s.cfg + 2
  | .bitlow => (s.bitidx.toNat + 1) * ticksPerBit s.cfg + 2
  | .bitsample => 1 + s.cfg.nHigh + s.bitidx.toNat * ticksPerBit s.cfg + 2
  | .bithigh => s.cfg.nHigh + s.bitidx.toNat * ticksPerBit s.cfg + 2
  | .seldeassert => 2
  | .decode => 1

theorem ticksLeft_of_idle {s : State} (h : s.phase = .idle) : s.ticksLeft = 0 := by
  rw [State.ticksLeft, h]

/-- Each operation in a READ lasts the ticks it takes off those left. -/
theorem ticksLeft_of_performs {s u : State} (h : Performs s u) (hRst : s.port.rst = false) (hBusy : s.phase ≠ .idle) :
    ticksOf s.cfg s.fetch + u.tick.ticksLeft = s.ticksLeft := by
  rw [ticksOf_fetch_of_phase hRst rfl]
  cases h with
  | init hRst' => simp [hRst] at hRst'
  | read _ hIdle | nop _ hIdle => exact absurd hIdle hBusy
  | bitlow _ hPhase =>
    simp only [State.ticksLeft, ticksInPhase, hPhase, Nat.succ_mul]
    simp +arith [ticksPerBit]
  | bithigh _ hPhase =>
    by_cases hZero : s.bitidx = 0#5
    · simp [State.ticksLeft, ticksInPhase, hPhase, nextBit_eq, hZero]
    · have hPred := bitidx_pred_toNat hZero
      simp +arith [State.ticksLeft, ticksInPhase, hPhase, nextBit_eq, hZero, -BitVec.toNat_sub, hPred]
  | clkidle _ hPhase | selassert _ hPhase | bitsample _ hPhase | seldeassert _ hPhase | decodeFault _ hPhase
  | decodeTemp _ hPhase =>
    simp +arith [State.ticksLeft, ticksInPhase, hPhase]

/-- A run of the steps left takes the ticks left. -/
theorem runTicks_in_read {k : Nat} {s : State} (hLeft : s.stepsLeft = k)
    (hRst : ∀ n, n < k → (s.portAt n).rst = false) : runTicks k s = s.ticksLeft := by
  induction k generalizing s with
  | zero => rw [runTicks, ticksLeft_of_idle ((phase_eq_idle_iff_stepsLeft s).mpr hLeft)]
  | succ k ih =>
    have hPort : s.port.rst = false := portAt_zero s ▸ hRst 0 (by omega)
    have hBusy : s.phase ≠ .idle := fun hIdle => by simp [(phase_eq_idle_iff_stepsLeft s).mp hIdle] at hLeft
    obtain ⟨v, hStep⟩ := exists_step_of_no_rst hPort
    obtain ⟨u, hu, rfl⟩ := performs_of_step hStep
    have hLeftAfter := stepsLeft_of_performs hu hPort hBusy
    have hRstAfter : ∀ n, n < k → (u.tick.portAt n).rst = false := fun n hn => by
      rw [portAt_after_step hStep]
      exact hRst (n + 1) (by omega)
    calc runTicks (k + 1) s
        = ticksOf s.cfg s.fetch + runTicks k u.tick := runTicks_succ_of_step k hStep
      _ = ticksOf s.cfg s.fetch + u.tick.ticksLeft := by rw [ih (by omega) hRstAfter]
      _ = s.ticksLeft := ticksLeft_of_performs hu hPort hBusy

/-- Settles O51: the acceptance lasts one tick, and the 100 steps it leaves take the ticks left in CLKIDLE. -/
theorem readTakesTheTicksOfTheFormula : Obligations.ReadTakesTheTicksOfTheFormula := by
  rintro s ⟨hPhase, hStart, hRst⟩
  have hPort : s.port.rst = false := portAt_zero s ▸ hRst 0 (by omega)
  have hAccept : step s = .next (acceptRead s).tick := step_read_at_rest hPort hPhase hStart
  have hRstAfter : ∀ n, n < 100 → ((acceptRead s).tick.portAt n).rst = false := fun n hn => by
    rw [portAt_after_step hAccept]
    exact hRst (n + 1) (by omega)
  have hHundred : (acceptRead s).tick.stepsLeft = 100 := rfl
  calc runTicks 101 s
      = ticksOf s.cfg s.fetch + runTicks 100 (acceptRead s).tick := runTicks_succ_of_step 100 hAccept
    _ = 1 + (acceptRead s).tick.ticksLeft := by
      rw [ticksOf_fetch_of_phase hPort hPhase, runTicks_in_read hHundred hRstAfter, ticksInPhase]
    _ = 1 + (1 + s.cfg.nSettle + 32 * ticksPerBit s.cfg + 2) := rfl
    _ = 4 + s.cfg.nSettle + 32 * (s.cfg.nLow + 1 + s.cfg.nHigh) := by rw [ticksPerBit]; omega

end Sys2Proof.Machine
end
